-- ==== Sys2Proof/Word.lean ====
section
/-!
DEFINITION. The word types of the machine, by the widths of rule R8 (spec/00_scope.md): bytes for
registers and data, 16-bit words for addresses and `PC`, and the 64-bit count a tick returns.
-/

namespace Sys2Proof

/-- An 8-bit datum: `A`, `X`, `Y`, `SP`, a memory cell, the packed status (R8). -/
abbrev Byte := BitVec 8

/-- A 16-bit address or `PC` value (R8). -/
abbrev Word := BitVec 16

/-- The cycle count a tick returns, a `u64` (R8). -/
abbrev Cycles := BitVec 64

end Sys2Proof
end

