-- ==== Sys2Proof/Machine/Bits.lean ====
section
/-!
DEFINITION. The bit-field, extension and byte-order helpers of rule R11 (spec/00_scope.md).
Every split and join of a 16-bit value in the model goes through these, so the byte order
(little-endian, R61) is decided by their callers' argument order alone.
-/

namespace Sys2Proof.Machine

/-- `hi(a) = a[15:8]` (R11). -/
def hi (a : Word) : Byte := a.extractLsb' 8 8

/-- `lo(a) = a[7:0]` (R11). -/
def lo (a : Word) : Byte := a.extractLsb' 0 8

/-- `{h, l} = (h << 8) | l` (R11). -/
def join (h l : Byte) : Word := h ++ l

/-- `zext_16(v)` (R11). -/
def zext16 (v : Byte) : Word := v.setWidth 16

/-- `sext_16(v)` (R11). -/
def sext16 (v : Byte) : Word := v.signExtend 16

/-- Bit `i` of a byte, `v[i]` (R11). -/
def bit (v : Byte) (i : Nat) : Bool := v.getLsbD i

/-- A flag placed at bit `k` of a byte, as the packed status does (R33). -/
def flagAt (f : Bool) (k : Nat) : Byte := if f then 1#8 <<< k else 0#8

/-- Byte `k` of a number written least significant byte first (the host's numbering of an
instruction's bits: bit 0 is the least significant bit of the first byte). -/
def byteOf (w k : Nat) : Byte := BitVec.ofNat 8 (w / 256 ^ k)

end Sys2Proof.Machine
end

