-- ==== Sys2Proof/Syntax.lean ====
section
/-!
DEFINITION. The instruction set as syntax: one constructor per instruction of
spec/opcode_table.json (the 56 mnemonics of rule R84, `JMP` as its two instructions R209 and R210,
and `UNDEF`), each with the operand its addressing mode fetches (R80, R82). A row of the table is
one constructor at one addressing mode; the 105 `UNDEF` rows are `undef` at their opcode byte.
-/

namespace Sys2Proof

/-- The addressing modes with an effective address (R109 to R114, R116, R117), with the operand
bytes the mode fetches: one byte, or a 16-bit value assembled from two (R82). -/
inductive MemMode where
  /-- Zero Page (R109) -/
  | zp (a : Byte)
  /-- Zero Page,X (R110) -/
  | zpX (a : Byte)
  /-- Zero Page,Y (R111) -/
  | zpY (a : Byte)
  /-- Absolute (R112) -/
  | abs (a : Word)
  /-- Absolute,X (R113) -/
  | absX (a : Word)
  /-- Absolute,Y (R114) -/
  | absY (a : Word)
  /-- (Indirect,X) (R116) -/
  | indX (a : Byte)
  /-- (Indirect),Y (R117) -/
  | indY (a : Byte)
  deriving DecidableEq, Repr

/-- The operand of a read-class instruction (R119): the operand byte itself (Immediate, R108), or
memory. -/
inductive ReadMode where
  | imm (v : Byte)
  | mem (m : MemMode)
  deriving DecidableEq, Repr

/-- The operand of a shift or rotate (R190): the accumulator (R107), or memory. -/
inductive ShiftMode where
  | acc
  | mem (m : MemMode)
  deriving DecidableEq, Repr

/-- The instructions. Loads, stores and transfers; arithmetic and logic; shifts; control flow;
stack, flag and system instructions (R128); and the undefined opcode bytes (R85). -/
inductive Instr where
  -- spec/41_load_store_transfer.md
  | lda (o : ReadMode)
  | ldx (o : ReadMode)
  | ldy (o : ReadMode)
  | sta (m : MemMode)
  | stx (m : MemMode)
  | sty (m : MemMode)
  | tax
  | tay
  | txa
  | tya
  | tsx
  | txs
  -- spec/42_arith_logic_compare.md
  | adc (o : ReadMode)
  | sbc (o : ReadMode)
  | and (o : ReadMode)
  | ora (o : ReadMode)
  | eor (o : ReadMode)
  | bit (m : MemMode)
  | cmp (o : ReadMode)
  | cpx (o : ReadMode)
  | cpy (o : ReadMode)
  | inc (m : MemMode)
  | dec (m : MemMode)
  | inx
  | iny
  | dex
  | dey
  -- spec/43_shift_rotate.md
  | asl (o : ShiftMode)
  | lsr (o : ShiftMode)
  | rol (o : ShiftMode)
  | ror (o : ShiftMode)
  -- spec/44_control_flow.md; a branch carries its signed offset byte
  | bpl (off : Byte)
  | bmi (off : Byte)
  | bvc (off : Byte)
  | bvs (off : Byte)
  | bcc (off : Byte)
  | bcs (off : Byte)
  | bne (off : Byte)
  | beq (off : Byte)
  | jmpAbs (target : Word)
  | jmpInd (ptr : Word)
  | jsr (target : Word)
  | rts
  -- spec/45_stack_flag_system.md
  | pha
  | php
  | pla
  | plp
  | clc
  | sec
  | cli
  | sei
  | cld
  | sed
  | clv
  /-- `BRK` with the padding byte that follows it, of any value and ignored (R81, R86) -/
  | brk (pad : Byte)
  | rti
  | nop
  /-- an undefined opcode byte, kept so that no bit of the encoding is lost (R85) -/
  | undef (op : Byte)
  deriving DecidableEq, Repr

end Sys2Proof
end

