-- ==== Sys2Proof/WellFormed.lean ====
section
/-!
DEFINITION. Which terms of `Instr` are instructions of the table: the addressing modes each
mnemonic has (rule R84, spec/30_encoding.md), and the 105 undefined bytes (R85).
-/

namespace Sys2Proof

/-- The memory modes of the accumulator group (ADC, AND, CMP, EOR, LDA, ORA, SBC, STA): all but
Zero Page,Y (R84). -/
def MemMode.forAcc : MemMode → Bool
  | .zp _ | .zpX _ | .abs _ | .absX _ | .absY _ | .indX _ | .indY _ => true
  | .zpY _ => false

/-- The memory modes of LDX (R84). -/
def MemMode.forLdx : MemMode → Bool
  | .zp _ | .zpY _ | .abs _ | .absY _ => true
  | .zpX _ | .absX _ | .indX _ | .indY _ => false

/-- The memory modes of LDY, and of the shifts, rotates, INC and DEC (R84). -/
def MemMode.forIndexX : MemMode → Bool
  | .zp _ | .zpX _ | .abs _ | .absX _ => true
  | .zpY _ | .absY _ | .indX _ | .indY _ => false

/-- The modes of STX (R84). -/
def MemMode.forStx : MemMode → Bool
  | .zp _ | .zpY _ | .abs _ => true
  | .zpX _ | .absX _ | .absY _ | .indX _ | .indY _ => false

/-- The modes of STY (R84). -/
def MemMode.forSty : MemMode → Bool
  | .zp _ | .zpX _ | .abs _ => true
  | .zpY _ | .absX _ | .absY _ | .indX _ | .indY _ => false

/-- The memory modes of BIT, CPX and CPY (R84). -/
def MemMode.forPlain : MemMode → Bool
  | .zp _ | .abs _ => true
  | .zpX _ | .zpY _ | .absX _ | .absY _ | .indX _ | .indY _ => false

/-- Immediate, or a memory mode the given check admits. -/
def ReadMode.admits (f : MemMode → Bool) : ReadMode → Bool
  | .imm _ => true
  | .mem m => f m

/-- Accumulator, or a memory mode the given check admits. -/
def ShiftMode.admits (f : MemMode → Bool) : ShiftMode → Bool
  | .acc => true
  | .mem m => f m

/-- The 105 undefined opcode bytes, in R85's order. -/
def undefinedBytes : List Byte :=
  [0x02, 0x03, 0x04, 0x07, 0x0B, 0x0C, 0x0F, 0x12, 0x13, 0x14, 0x17, 0x1A, 0x1B, 0x1C, 0x1F] ++
  [0x22, 0x23, 0x27, 0x2B, 0x2F, 0x32, 0x33, 0x34, 0x37, 0x3A, 0x3B, 0x3C, 0x3F] ++
  [0x42, 0x43, 0x44, 0x47, 0x4B, 0x4F, 0x52, 0x53, 0x54, 0x57, 0x5A, 0x5B, 0x5C, 0x5F] ++
  [0x62, 0x63, 0x64, 0x67, 0x6B, 0x6F, 0x72, 0x73, 0x74, 0x77, 0x7A, 0x7B, 0x7C, 0x7F] ++
  [0x80, 0x82, 0x83, 0x87, 0x89, 0x8B, 0x8F, 0x92, 0x93, 0x97, 0x9B, 0x9C, 0x9E, 0x9F] ++
  [0xA3, 0xA7, 0xAB, 0xAF, 0xB2, 0xB3, 0xB7, 0xBB, 0xBF] ++
  [0xC2, 0xC3, 0xC7, 0xCB, 0xCF, 0xD2, 0xD3, 0xD4, 0xD7, 0xDA, 0xDB, 0xDC, 0xDF] ++
  [0xE2, 0xE3, 0xE7, 0xEB, 0xEF, 0xF2, 0xF3, 0xF4, 0xF7, 0xFA, 0xFB, 0xFC, 0xFF]

/-- Whether a term stands for a row of the opcode table (R84, R85). -/
def Instr.wellFormed : Instr → Bool
  | .lda o | .adc o | .sbc o | .and o | .ora o | .eor o | .cmp o => o.admits MemMode.forAcc
  | .ldx o => o.admits MemMode.forLdx
  | .ldy o => o.admits MemMode.forIndexX
  | .sta m => m.forAcc
  | .stx m => m.forStx
  | .sty m => m.forSty
  | .bit m => m.forPlain
  | .cpx o | .cpy o => o.admits MemMode.forPlain
  | .inc m | .dec m => m.forIndexX
  | .asl o | .lsr o | .rol o | .ror o => o.admits MemMode.forIndexX
  | .undef op => undefinedBytes.contains op
  | .tax | .tay | .txa | .tya | .tsx | .txs => true
  | .inx | .iny | .dex | .dey => true
  | .bpl _ | .bmi _ | .bvc _ | .bvs _ | .bcc _ | .bcs _ | .bne _ | .beq _ => true
  | .jmpAbs _ | .jmpInd _ | .jsr _ | .rts => true
  | .pha | .php | .pla | .plp => true
  | .clc | .sec | .cli | .sei | .cld | .sed | .clv => true
  | .brk _ | .rti | .nop => true

end Sys2Proof
end

