-- ==== Sys2Proof/Decode.lean ====
section
/-!
DEFINITION. The decoder and the encoder, both read off the opcode map of rules R83 and R84
(spec/30_encoding.md, spec/opcode_table.json).

Decoding is total: R87 makes it a function of the opcode byte alone, every byte is a row of the
table (R85 gives the 105 undefined bytes a meaning), and the operand bytes take every value (R86).
The only thing a decoder of a LIST of bytes can refuse is a list that ends inside an instruction;
the machine never meets that case, because its fetch always reads three bytes (R103).
-/

namespace Sys2Proof

open Sys2Proof.Machine

/-- Row 0x of the opcode map (R83): opcode bytes 0x00 to 0x0F. -/
def decodeRow0 (op l h : Byte) : Instr :=
  match op with
  | 0x00 => .brk l
  | 0x01 => .ora (.mem (.indX l))
  | 0x05 => .ora (.mem (.zp l))
  | 0x06 => .asl (.mem (.zp l))
  | 0x08 => .php
  | 0x09 => .ora (.imm l)
  | 0x0A => .asl .acc
  | 0x0D => .ora (.mem (.abs (join h l)))
  | 0x0E => .asl (.mem (.abs (join h l)))
  | _ => .undef op

/-- Row 1x of the opcode map (R83): opcode bytes 0x10 to 0x1F. -/
def decodeRow1 (op l h : Byte) : Instr :=
  match op with
  | 0x10 => .bpl l
  | 0x11 => .ora (.mem (.indY l))
  | 0x15 => .ora (.mem (.zpX l))
  | 0x16 => .asl (.mem (.zpX l))
  | 0x18 => .clc
  | 0x19 => .ora (.mem (.absY (join h l)))
  | 0x1D => .ora (.mem (.absX (join h l)))
  | 0x1E => .asl (.mem (.absX (join h l)))
  | _ => .undef op

/-- Row 2x of the opcode map (R83): opcode bytes 0x20 to 0x2F. -/
def decodeRow2 (op l h : Byte) : Instr :=
  match op with
  | 0x20 => .jsr (join h l)
  | 0x21 => .and (.mem (.indX l))
  | 0x24 => .bit (.zp l)
  | 0x25 => .and (.mem (.zp l))
  | 0x26 => .rol (.mem (.zp l))
  | 0x28 => .plp
  | 0x29 => .and (.imm l)
  | 0x2A => .rol .acc
  | 0x2C => .bit (.abs (join h l))
  | 0x2D => .and (.mem (.abs (join h l)))
  | 0x2E => .rol (.mem (.abs (join h l)))
  | _ => .undef op

/-- Row 3x of the opcode map (R83): opcode bytes 0x30 to 0x3F. -/
def decodeRow3 (op l h : Byte) : Instr :=
  match op with
  | 0x30 => .bmi l
  | 0x31 => .and (.mem (.indY l))
  | 0x35 => .and (.mem (.zpX l))
  | 0x36 => .rol (.mem (.zpX l))
  | 0x38 => .sec
  | 0x39 => .and (.mem (.absY (join h l)))
  | 0x3D => .and (.mem (.absX (join h l)))
  | 0x3E => .rol (.mem (.absX (join h l)))
  | _ => .undef op

/-- Row 4x of the opcode map (R83): opcode bytes 0x40 to 0x4F. -/
def decodeRow4 (op l h : Byte) : Instr :=
  match op with
  | 0x40 => .rti
  | 0x41 => .eor (.mem (.indX l))
  | 0x45 => .eor (.mem (.zp l))
  | 0x46 => .lsr (.mem (.zp l))
  | 0x48 => .pha
  | 0x49 => .eor (.imm l)
  | 0x4A => .lsr .acc
  | 0x4C => .jmpAbs (join h l)
  | 0x4D => .eor (.mem (.abs (join h l)))
  | 0x4E => .lsr (.mem (.abs (join h l)))
  | _ => .undef op

/-- Row 5x of the opcode map (R83): opcode bytes 0x50 to 0x5F. -/
def decodeRow5 (op l h : Byte) : Instr :=
  match op with
  | 0x50 => .bvc l
  | 0x51 => .eor (.mem (.indY l))
  | 0x55 => .eor (.mem (.zpX l))
  | 0x56 => .lsr (.mem (.zpX l))
  | 0x58 => .cli
  | 0x59 => .eor (.mem (.absY (join h l)))
  | 0x5D => .eor (.mem (.absX (join h l)))
  | 0x5E => .lsr (.mem (.absX (join h l)))
  | _ => .undef op

/-- Row 6x of the opcode map (R83): opcode bytes 0x60 to 0x6F. -/
def decodeRow6 (op l h : Byte) : Instr :=
  match op with
  | 0x60 => .rts
  | 0x61 => .adc (.mem (.indX l))
  | 0x65 => .adc (.mem (.zp l))
  | 0x66 => .ror (.mem (.zp l))
  | 0x68 => .pla
  | 0x69 => .adc (.imm l)
  | 0x6A => .ror .acc
  | 0x6C => .jmpInd (join h l)
  | 0x6D => .adc (.mem (.abs (join h l)))
  | 0x6E => .ror (.mem (.abs (join h l)))
  | _ => .undef op

/-- Row 7x of the opcode map (R83): opcode bytes 0x70 to 0x7F. -/
def decodeRow7 (op l h : Byte) : Instr :=
  match op with
  | 0x70 => .bvs l
  | 0x71 => .adc (.mem (.indY l))
  | 0x75 => .adc (.mem (.zpX l))
  | 0x76 => .ror (.mem (.zpX l))
  | 0x78 => .sei
  | 0x79 => .adc (.mem (.absY (join h l)))
  | 0x7D => .adc (.mem (.absX (join h l)))
  | 0x7E => .ror (.mem (.absX (join h l)))
  | _ => .undef op

/-- Row 8x of the opcode map (R83): opcode bytes 0x80 to 0x8F. -/
def decodeRow8 (op l h : Byte) : Instr :=
  match op with
  | 0x81 => .sta (.indX l)
  | 0x84 => .sty (.zp l)
  | 0x85 => .sta (.zp l)
  | 0x86 => .stx (.zp l)
  | 0x88 => .dey
  | 0x8A => .txa
  | 0x8C => .sty (.abs (join h l))
  | 0x8D => .sta (.abs (join h l))
  | 0x8E => .stx (.abs (join h l))
  | _ => .undef op

/-- Row 9x of the opcode map (R83): opcode bytes 0x90 to 0x9F. -/
def decodeRow9 (op l h : Byte) : Instr :=
  match op with
  | 0x90 => .bcc l
  | 0x91 => .sta (.indY l)
  | 0x94 => .sty (.zpX l)
  | 0x95 => .sta (.zpX l)
  | 0x96 => .stx (.zpY l)
  | 0x98 => .tya
  | 0x99 => .sta (.absY (join h l))
  | 0x9A => .txs
  | 0x9D => .sta (.absX (join h l))
  | _ => .undef op

/-- Row Ax of the opcode map (R83): opcode bytes 0xA0 to 0xAF. -/
def decodeRowA (op l h : Byte) : Instr :=
  match op with
  | 0xA0 => .ldy (.imm l)
  | 0xA1 => .lda (.mem (.indX l))
  | 0xA2 => .ldx (.imm l)
  | 0xA4 => .ldy (.mem (.zp l))
  | 0xA5 => .lda (.mem (.zp l))
  | 0xA6 => .ldx (.mem (.zp l))
  | 0xA8 => .tay
  | 0xA9 => .lda (.imm l)
  | 0xAA => .tax
  | 0xAC => .ldy (.mem (.abs (join h l)))
  | 0xAD => .lda (.mem (.abs (join h l)))
  | 0xAE => .ldx (.mem (.abs (join h l)))
  | _ => .undef op

/-- Row Bx of the opcode map (R83): opcode bytes 0xB0 to 0xBF. -/
def decodeRowB (op l h : Byte) : Instr :=
  match op with
  | 0xB0 => .bcs l
  | 0xB1 => .lda (.mem (.indY l))
  | 0xB4 => .ldy (.mem (.zpX l))
  | 0xB5 => .lda (.mem (.zpX l))
  | 0xB6 => .ldx (.mem (.zpY l))
  | 0xB8 => .clv
  | 0xB9 => .lda (.mem (.absY (join h l)))
  | 0xBA => .tsx
  | 0xBC => .ldy (.mem (.absX (join h l)))
  | 0xBD => .lda (.mem (.absX (join h l)))
  | 0xBE => .ldx (.mem (.absY (join h l)))
  | _ => .undef op

/-- Row Cx of the opcode map (R83): opcode bytes 0xC0 to 0xCF. -/
def decodeRowC (op l h : Byte) : Instr :=
  match op with
  | 0xC0 => .cpy (.imm l)
  | 0xC1 => .cmp (.mem (.indX l))
  | 0xC4 => .cpy (.mem (.zp l))
  | 0xC5 => .cmp (.mem (.zp l))
  | 0xC6 => .dec (.zp l)
  | 0xC8 => .iny
  | 0xC9 => .cmp (.imm l)
  | 0xCA => .dex
  | 0xCC => .cpy (.mem (.abs (join h l)))
  | 0xCD => .cmp (.mem (.abs (join h l)))
  | 0xCE => .dec (.abs (join h l))
  | _ => .undef op

/-- Row Dx of the opcode map (R83): opcode bytes 0xD0 to 0xDF. -/
def decodeRowD (op l h : Byte) : Instr :=
  match op with
  | 0xD0 => .bne l
  | 0xD1 => .cmp (.mem (.indY l))
  | 0xD5 => .cmp (.mem (.zpX l))
  | 0xD6 => .dec (.zpX l)
  | 0xD8 => .cld
  | 0xD9 => .cmp (.mem (.absY (join h l)))
  | 0xDD => .cmp (.mem (.absX (join h l)))
  | 0xDE => .dec (.absX (join h l))
  | _ => .undef op

/-- Row Ex of the opcode map (R83): opcode bytes 0xE0 to 0xEF. -/
def decodeRowE (op l h : Byte) : Instr :=
  match op with
  | 0xE0 => .cpx (.imm l)
  | 0xE1 => .sbc (.mem (.indX l))
  | 0xE4 => .cpx (.mem (.zp l))
  | 0xE5 => .sbc (.mem (.zp l))
  | 0xE6 => .inc (.zp l)
  | 0xE8 => .inx
  | 0xE9 => .sbc (.imm l)
  | 0xEA => .nop
  | 0xEC => .cpx (.mem (.abs (join h l)))
  | 0xED => .sbc (.mem (.abs (join h l)))
  | 0xEE => .inc (.abs (join h l))
  | _ => .undef op

/-- Row Fx of the opcode map (R83): opcode bytes 0xF0 to 0xFF. -/
def decodeRowF (op l h : Byte) : Instr :=
  match op with
  | 0xF0 => .beq l
  | 0xF1 => .sbc (.mem (.indY l))
  | 0xF5 => .sbc (.mem (.zpX l))
  | 0xF6 => .inc (.zpX l)
  | 0xF8 => .sed
  | 0xF9 => .sbc (.mem (.absY (join h l)))
  | 0xFD => .sbc (.mem (.absX (join h l)))
  | 0xFE => .inc (.absX (join h l))
  | _ => .undef op

/-- The instruction at an opcode byte, with the two operand bytes the fetch reads: `l` is `op1` and
`h` is `op2` (R80, R82, R84). The map is R83's grid, the row chosen by the high nibble; a byte
outside it is the undefined opcode of R85. -/
def decode (op l h : Byte) : Instr :=
  match op.toNat / 16 with
  | 0x0 => decodeRow0 op l h
  | 0x1 => decodeRow1 op l h
  | 0x2 => decodeRow2 op l h
  | 0x3 => decodeRow3 op l h
  | 0x4 => decodeRow4 op l h
  | 0x5 => decodeRow5 op l h
  | 0x6 => decodeRow6 op l h
  | 0x7 => decodeRow7 op l h
  | 0x8 => decodeRow8 op l h
  | 0x9 => decodeRow9 op l h
  | 0xA => decodeRowA op l h
  | 0xB => decodeRowB op l h
  | 0xC => decodeRowC op l h
  | 0xD => decodeRowD op l h
  | 0xE => decodeRowE op l h
  | _ => decodeRowF op l h

/-- The opcode byte of an instruction, where the table has one (R84, R85). -/
def Instr.opcode : Instr → Option Byte
  | .lda (.mem (.indX _)) => some 0xA1
  | .lda (.mem (.zp _)) => some 0xA5
  | .lda (.imm _) => some 0xA9
  | .lda (.mem (.abs _)) => some 0xAD
  | .lda (.mem (.indY _)) => some 0xB1
  | .lda (.mem (.zpX _)) => some 0xB5
  | .lda (.mem (.absY _)) => some 0xB9
  | .lda (.mem (.absX _)) => some 0xBD
  | .lda (.mem (.zpY _)) => none
  | .ldx (.imm _) => some 0xA2
  | .ldx (.mem (.zp _)) => some 0xA6
  | .ldx (.mem (.abs _)) => some 0xAE
  | .ldx (.mem (.zpY _)) => some 0xB6
  | .ldx (.mem (.absY _)) => some 0xBE
  | .ldx (.mem (.zpX _)) | .ldx (.mem (.absX _)) | .ldx (.mem (.indX _)) | .ldx (.mem (.indY _)) => none
  | .ldy (.imm _) => some 0xA0
  | .ldy (.mem (.zp _)) => some 0xA4
  | .ldy (.mem (.abs _)) => some 0xAC
  | .ldy (.mem (.zpX _)) => some 0xB4
  | .ldy (.mem (.absX _)) => some 0xBC
  | .ldy (.mem (.zpY _)) | .ldy (.mem (.absY _)) | .ldy (.mem (.indX _)) | .ldy (.mem (.indY _)) => none
  | .sta (.indX _) => some 0x81
  | .sta (.zp _) => some 0x85
  | .sta (.abs _) => some 0x8D
  | .sta (.indY _) => some 0x91
  | .sta (.zpX _) => some 0x95
  | .sta (.absY _) => some 0x99
  | .sta (.absX _) => some 0x9D
  | .sta (.zpY _) => none
  | .stx (.zp _) => some 0x86
  | .stx (.abs _) => some 0x8E
  | .stx (.zpY _) => some 0x96
  | .stx (.zpX _) | .stx (.absX _) | .stx (.absY _) | .stx (.indX _) | .stx (.indY _) => none
  | .sty (.zp _) => some 0x84
  | .sty (.abs _) => some 0x8C
  | .sty (.zpX _) => some 0x94
  | .sty (.zpY _) | .sty (.absX _) | .sty (.absY _) | .sty (.indX _) | .sty (.indY _) => none
  | .tax => some 0xAA
  | .tay => some 0xA8
  | .txa => some 0x8A
  | .tya => some 0x98
  | .tsx => some 0xBA
  | .txs => some 0x9A
  | .adc (.mem (.indX _)) => some 0x61
  | .adc (.mem (.zp _)) => some 0x65
  | .adc (.imm _) => some 0x69
  | .adc (.mem (.abs _)) => some 0x6D
  | .adc (.mem (.indY _)) => some 0x71
  | .adc (.mem (.zpX _)) => some 0x75
  | .adc (.mem (.absY _)) => some 0x79
  | .adc (.mem (.absX _)) => some 0x7D
  | .adc (.mem (.zpY _)) => none
  | .sbc (.mem (.indX _)) => some 0xE1
  | .sbc (.mem (.zp _)) => some 0xE5
  | .sbc (.imm _) => some 0xE9
  | .sbc (.mem (.abs _)) => some 0xED
  | .sbc (.mem (.indY _)) => some 0xF1
  | .sbc (.mem (.zpX _)) => some 0xF5
  | .sbc (.mem (.absY _)) => some 0xF9
  | .sbc (.mem (.absX _)) => some 0xFD
  | .sbc (.mem (.zpY _)) => none
  | .and (.mem (.indX _)) => some 0x21
  | .and (.mem (.zp _)) => some 0x25
  | .and (.imm _) => some 0x29
  | .and (.mem (.abs _)) => some 0x2D
  | .and (.mem (.indY _)) => some 0x31
  | .and (.mem (.zpX _)) => some 0x35
  | .and (.mem (.absY _)) => some 0x39
  | .and (.mem (.absX _)) => some 0x3D
  | .and (.mem (.zpY _)) => none
  | .ora (.mem (.indX _)) => some 0x01
  | .ora (.mem (.zp _)) => some 0x05
  | .ora (.imm _) => some 0x09
  | .ora (.mem (.abs _)) => some 0x0D
  | .ora (.mem (.indY _)) => some 0x11
  | .ora (.mem (.zpX _)) => some 0x15
  | .ora (.mem (.absY _)) => some 0x19
  | .ora (.mem (.absX _)) => some 0x1D
  | .ora (.mem (.zpY _)) => none
  | .eor (.mem (.indX _)) => some 0x41
  | .eor (.mem (.zp _)) => some 0x45
  | .eor (.imm _) => some 0x49
  | .eor (.mem (.abs _)) => some 0x4D
  | .eor (.mem (.indY _)) => some 0x51
  | .eor (.mem (.zpX _)) => some 0x55
  | .eor (.mem (.absY _)) => some 0x59
  | .eor (.mem (.absX _)) => some 0x5D
  | .eor (.mem (.zpY _)) => none
  | .bit (.zp _) => some 0x24
  | .bit (.abs _) => some 0x2C
  | .bit (.zpX _) | .bit (.zpY _) | .bit (.absX _) | .bit (.absY _) | .bit (.indX _) | .bit (.indY _) => none
  | .cmp (.mem (.indX _)) => some 0xC1
  | .cmp (.mem (.zp _)) => some 0xC5
  | .cmp (.imm _) => some 0xC9
  | .cmp (.mem (.abs _)) => some 0xCD
  | .cmp (.mem (.indY _)) => some 0xD1
  | .cmp (.mem (.zpX _)) => some 0xD5
  | .cmp (.mem (.absY _)) => some 0xD9
  | .cmp (.mem (.absX _)) => some 0xDD
  | .cmp (.mem (.zpY _)) => none
  | .cpx (.imm _) => some 0xE0
  | .cpx (.mem (.zp _)) => some 0xE4
  | .cpx (.mem (.abs _)) => some 0xEC
  | .cpx (.mem (.zpX _)) | .cpx (.mem (.zpY _)) | .cpx (.mem (.absX _)) | .cpx (.mem (.absY _)) | .cpx (.mem (.indX _)) | .cpx (.mem (.indY _)) => none
  | .cpy (.imm _) => some 0xC0
  | .cpy (.mem (.zp _)) => some 0xC4
  | .cpy (.mem (.abs _)) => some 0xCC
  | .cpy (.mem (.zpX _)) | .cpy (.mem (.zpY _)) | .cpy (.mem (.absX _)) | .cpy (.mem (.absY _)) | .cpy (.mem (.indX _)) | .cpy (.mem (.indY _)) => none
  | .inc (.zp _) => some 0xE6
  | .inc (.abs _) => some 0xEE
  | .inc (.zpX _) => some 0xF6
  | .inc (.absX _) => some 0xFE
  | .inc (.zpY _) | .inc (.absY _) | .inc (.indX _) | .inc (.indY _) => none
  | .dec (.zp _) => some 0xC6
  | .dec (.abs _) => some 0xCE
  | .dec (.zpX _) => some 0xD6
  | .dec (.absX _) => some 0xDE
  | .dec (.zpY _) | .dec (.absY _) | .dec (.indX _) | .dec (.indY _) => none
  | .inx => some 0xE8
  | .iny => some 0xC8
  | .dex => some 0xCA
  | .dey => some 0x88
  | .asl (.mem (.zp _)) => some 0x06
  | .asl .acc => some 0x0A
  | .asl (.mem (.abs _)) => some 0x0E
  | .asl (.mem (.zpX _)) => some 0x16
  | .asl (.mem (.absX _)) => some 0x1E
  | .asl (.mem (.zpY _)) | .asl (.mem (.absY _)) | .asl (.mem (.indX _)) | .asl (.mem (.indY _)) => none
  | .lsr (.mem (.zp _)) => some 0x46
  | .lsr .acc => some 0x4A
  | .lsr (.mem (.abs _)) => some 0x4E
  | .lsr (.mem (.zpX _)) => some 0x56
  | .lsr (.mem (.absX _)) => some 0x5E
  | .lsr (.mem (.zpY _)) | .lsr (.mem (.absY _)) | .lsr (.mem (.indX _)) | .lsr (.mem (.indY _)) => none
  | .rol (.mem (.zp _)) => some 0x26
  | .rol .acc => some 0x2A
  | .rol (.mem (.abs _)) => some 0x2E
  | .rol (.mem (.zpX _)) => some 0x36
  | .rol (.mem (.absX _)) => some 0x3E
  | .rol (.mem (.zpY _)) | .rol (.mem (.absY _)) | .rol (.mem (.indX _)) | .rol (.mem (.indY _)) => none
  | .ror (.mem (.zp _)) => some 0x66
  | .ror .acc => some 0x6A
  | .ror (.mem (.abs _)) => some 0x6E
  | .ror (.mem (.zpX _)) => some 0x76
  | .ror (.mem (.absX _)) => some 0x7E
  | .ror (.mem (.zpY _)) | .ror (.mem (.absY _)) | .ror (.mem (.indX _)) | .ror (.mem (.indY _)) => none
  | .bpl _ => some 0x10
  | .bmi _ => some 0x30
  | .bvc _ => some 0x50
  | .bvs _ => some 0x70
  | .bcc _ => some 0x90
  | .bcs _ => some 0xB0
  | .bne _ => some 0xD0
  | .beq _ => some 0xF0
  | .jmpAbs _ => some 0x4C
  | .jmpInd _ => some 0x6C
  | .jsr _ => some 0x20
  | .rts => some 0x60
  | .pha => some 0x48
  | .php => some 0x08
  | .pla => some 0x68
  | .plp => some 0x28
  | .clc => some 0x18
  | .sec => some 0x38
  | .cli => some 0x58
  | .sei => some 0x78
  | .cld => some 0xD8
  | .sed => some 0xF8
  | .clv => some 0xB8
  | .brk _ => some 0x00
  | .rti => some 0x40
  | .nop => some 0xEA
  | .undef op => if undefinedBytes.contains op then some op else none

/-- The length of a memory mode's encoding in bytes (R81). -/
def MemMode.size : MemMode → Nat
  | .zp _ | .zpX _ | .zpY _ | .indX _ | .indY _ => 2
  | .abs _ | .absX _ | .absY _ => 3

/-- The length of a read-class form (R81). -/
def ReadMode.size : ReadMode → Nat
  | .imm _ => 2
  | .mem m => m.size

/-- The length of a shift form: 1 for Accumulator (R81). -/
def ShiftMode.size : ShiftMode → Nat
  | .acc => 1
  | .mem m => m.size

/-- The length of an instruction in bytes (R81); 2 for BRK, whose padding byte is skipped, and 1
for an undefined byte. -/
def Instr.size : Instr → Nat
  | .lda o | .ldx o | .ldy o | .adc o | .sbc o | .and o | .ora o | .eor o => o.size
  | .cmp o | .cpx o | .cpy o => o.size
  | .sta m | .stx m | .sty m | .bit m | .inc m | .dec m => m.size
  | .asl o | .lsr o | .rol o | .ror o => o.size
  | .bpl _ | .bmi _ | .bvc _ | .bvs _ | .bcc _ | .bcs _ | .bne _ | .beq _ => 2
  | .jmpAbs _ | .jmpInd _ | .jsr _ => 3
  | .brk _ => 2
  | .tax | .tay | .txa | .tya | .tsx | .txs | .inx | .iny | .dex | .dey => 1
  | .rts | .pha | .php | .pla | .plp | .rti | .nop => 1
  | .clc | .sec | .cli | .sei | .cld | .sed | .clv => 1
  | .undef _ => 1

/-- A 16-bit operand in an instruction: low byte first (R61, R80). -/
def operandWord (w : Word) : List Byte := [lo w, hi w]

/-- The operand bytes of a memory mode (R80). -/
def MemMode.operandBytes : MemMode → List Byte
  | .zp a | .zpX a | .zpY a | .indX a | .indY a => [a]
  | .abs w | .absX w | .absY w => operandWord w

/-- The operand bytes of a read-class form. -/
def ReadMode.operandBytes : ReadMode → List Byte
  | .imm v => [v]
  | .mem m => m.operandBytes

/-- The operand bytes of a shift form. -/
def ShiftMode.operandBytes : ShiftMode → List Byte
  | .acc => []
  | .mem m => m.operandBytes

/-- The bytes after the opcode byte (R80). -/
def Instr.operandBytes : Instr → List Byte
  | .lda o | .ldx o | .ldy o | .adc o | .sbc o | .and o | .ora o | .eor o => o.operandBytes
  | .cmp o | .cpx o | .cpy o => o.operandBytes
  | .sta m | .stx m | .sty m | .bit m | .inc m | .dec m => m.operandBytes
  | .asl o | .lsr o | .rol o | .ror o => o.operandBytes
  | .bpl d | .bmi d | .bvc d | .bvs d | .bcc d | .bcs d | .bne d | .beq d => [d]
  | .jmpAbs w | .jmpInd w | .jsr w => operandWord w
  | .brk pad => [pad]
  | .tax | .tay | .txa | .tya | .tsx | .txs | .inx | .iny | .dex | .dey => []
  | .rts | .pha | .php | .pla | .plp | .rti | .nop => []
  | .clc | .sec | .cli | .sei | .cld | .sed | .clv => []
  | .undef _ => []

/-- The bytes of a well-formed instruction, in address order (R80); none for a term that is no row
of the table. -/
def encode (i : Instr) : List Byte :=
  match i.opcode with
  | some op => op :: i.operandBytes
  | none => []

/-- Why a list of bytes holds no whole instruction. -/
inductive DecodeError where
  /-- there is no opcode byte -/
  | noOpcode
  /-- the opcode's operand bytes are missing -/
  | truncated
  deriving DecidableEq, Repr

/-- The instruction at the head of a list of bytes, and the bytes after it. Total, and rejecting by
name: only a list that is too short is refused (R85: no encoding traps). -/
def decodeBytes (bs : List Byte) : Except DecodeError (Instr × List Byte) :=
  match bs with
  | [] => .error .noOpcode
  | op :: rest =>
    let i := decode op (rest.getD 0 0) (rest.getD 1 0)
    if rest.length + 1 < i.size then .error .truncated
    else .ok (i, (op :: rest).drop i.size)

/-- The first `nbits` bits of `w` as the three bytes of a fetch, first byte lowest; the bits above
are zero. -/
def tableBytes (nbits w : Nat) : List Byte :=
  [byteOf (w % 2 ^ nbits) 0, byteOf (w % 2 ^ nbits) 1, byteOf (w % 2 ^ nbits) 2]

/-- The instruction the decoder reads from a word numbered as spec/opcode_table.json numbers it. -/
def decodeTableWord (nbits w : Nat) : Option Instr :=
  match decodeBytes (tableBytes nbits w) with
  | .ok (i, _) => some i
  | .error _ => none

end Sys2Proof
end

