-- ==== Sys2Proof/Config.lean ====
section
/-!
DEFINITION. The implementation parameters of rule R10 (spec/00_scope.md) and what the host hands to
the machine when it constructs it (R271, spec/60_exceptions.md).

The parameters are data, not constants: `State` carries the four that a later tick or environment
step reads, so a statement about every state holds for every value of them. `State.reset` takes
the defaults of R10.
-/

namespace Sys2Proof

/-- `PAGE_PENALTY_SCOPE` (R10, R121; decision D4). -/
inductive PenaltyScope where
  /-- the default: only read-class instructions pay the page-cross cycle -/
  | readsOnly
  /-- every instruction in the three indexed modes pays it -/
  | allIndexed
  deriving DecidableEq, Repr

/-- The parameters of R10 that the machine reads while it runs. They are fixed for a run: no tick
and no environment step changes them. -/
structure Params where
  /-- `PRG_BANKS`, at least 1 in every run (R10, R59; decision D18) -/
  prgBanks : Nat
  /-- `JMP_IND_PAGE_WRAP` (R115; decision D3) -/
  jmpIndPageWrap : Bool
  /-- `PAGE_PENALTY_SCOPE` (R121; decision D4) -/
  pagePenaltyScope : PenaltyScope
  /-- `ENV_WRITES_RAM` (R70; decision D16) -/
  envWritesRam : Bool
  deriving DecidableEq, Repr

/-- The defaults R10 gives, at a given bank count (R10 gives the bank count no default). -/
def Params.defaults (banks : Nat) : Params :=
  { prgBanks := banks, jmpIndPageWrap := true, pagePenaltyScope := .readsOnly, envWritesRam := false }

/-- `POWER_ON_REGS`: the power-on values of A, X, Y, C, Z, D, V and N (R10; decision D6). -/
structure PowerOnRegs where
  a : Byte
  x : Byte
  y : Byte
  c : Bool
  z : Bool
  d : Bool
  v : Bool
  n : Bool
  deriving DecidableEq, Repr

/-- The default of `POWER_ON_REGS`: all zero (R10). -/
def PowerOnRegs.zero : PowerOnRegs :=
  { a := 0, x := 0, y := 0, c := false, z := false, d := false, v := false, n := false }

/-- The size of one PRG bank in bytes (R10). -/
def bankSize : Nat := 16384

/-- The size of system RAM in bytes (R8, R36). -/
def ramSize : Nat := 2048

/-- What a cell that a memory list does not name reads as. DESIGN CHOICE (log entry 2), unsafe: the
spec makes the initial contents of RAM and PRG parameters (U4) and gives them no value. -/
def unlisted : Byte := 0

/-- What the host sends to construct the core (R271): the cartridge's PRG image, the RAM buffer of
0x800 bytes, the PPU register buffer of 0x100 bytes, and the parameters. The VRAM buffer it also
sends is no state of this core (R36, R37; decision D25). -/
structure Construction where
  params : Params
  /-- `PRG`: exactly `PRG_BANKS × 16384` bytes in a well-formed cartridge -/
  prg : List Byte
  /-- `RAM0` -/
  ram0 : Vector Byte 2048
  /-- the driver's PPU register buffer; the core uses cells 0 to 7 (R36; decision D26) -/
  ppuBuffer : Vector Byte 256
  powerOn : PowerOnRegs
  deriving DecidableEq, Repr

end Sys2Proof
end

