-- ==== Sys2Proof/Machine/State.lean ====
section
/-!
DEFINITION. The state of the machine: the registers, flags and request latches of the CPU and the
three stores its bus reaches (spec/10_state.md), with the run's parameters and the two outputs of
the last tick. All of it is plain data.
-/

namespace Sys2Proof.Machine

/-- A sparse memory: cells in strictly rising order of index, none equal to what an unlisted index
reads as (`Memory.wf`, in Machine/Ops.lean). -/
abbrev Memory := List Host.Cell

/-- The stored status flags. `U` (bit 5) is always 1 and is not stored (R30); the packed byte `P`
is a projection (R33, Machine/Flags.lean). -/
structure Flags where
  /-- negative, bit 7 (R32) -/
  n : Bool
  /-- overflow, bit 6 (R31) -/
  v : Bool
  /-- the stored break bit, bit 4 (R29) -/
  b : Bool
  /-- decimal, bit 3 (R28) -/
  d : Bool
  /-- interrupt disable, bit 2 (R27) -/
  i : Bool
  /-- zero, bit 1 (R26) -/
  z : Bool
  /-- carry, bit 0 (R25) -/
  c : Bool
  deriving DecidableEq, Repr

/-- The eight PPU register cells, by the names of R55. -/
structure PpuRegs where
  ctrl : Byte
  mask : Byte
  status : Byte
  oamAddr : Byte
  oamData : Byte
  scroll : Byte
  addr : Byte
  data : Byte
  deriving DecidableEq, Repr

/-- One bus access of the access trace (R72). -/
inductive Access where
  | read (a : Word) (v : Byte)
  | write (a : Word) (v : Byte)
  deriving DecidableEq, Repr

/-- The state between two ticks. -/
structure State where
  /-- accumulator (R21) -/
  a : Byte
  /-- index register X (R22) -/
  x : Byte
  /-- index register Y (R22) -/
  y : Byte
  /-- stack pointer; the stack address is 0x0100 + SP (R23) -/
  sp : Byte
  /-- program counter: the address of the next opcode byte (R24) -/
  pc : Word
  /-- the stored flags (R25 to R32) -/
  p : Flags
  /-- `reset_requested` (R35) -/
  resetReq : Bool
  /-- `nmi_requested` (R35) -/
  nmiReq : Bool
  /-- `irq_requested` (R35) -/
  irqReq : Bool
  /-- system RAM, indices 0x000 to 0x7FF (R36 (a)) -/
  ram : Memory
  /-- the PPU register storage (R36 (b)) -/
  ppu : PpuRegs
  /-- the PRG image, by offset; read-only to the machine (R36 (c)) -/
  prg : Memory
  /-- the parameters of this run (R10); no rule writes them -/
  params : Params
  /-- the count the last tick returned (R101, R120); an output, which no rule reads -/
  cycles : Cycles
  /-- the accesses of the last tick, in order (R72, R101); an output, which no rule reads -/
  trace : List Access
  deriving DecidableEq, Repr

/-- Why the machine could stop with a fault. There is none: "every operation is total" (R14, R250),
no bus access can fail (R60) and no state is ever stuck (R235, U14), so the type has no
constructor and `step` can answer no fault. Nothing raises one, so nothing here is unsafe. -/
inductive Fault where
  deriving DecidableEq, Repr

/-- Why the model could refuse. -/
inductive Refusal where
  /-- Raised by `exec`'s arm of an instruction that has no meaning yet; no arm raises it now. Safe:
  the model stops where the hardware goes on. -/
  | notModelled (mnemonic : String)
  /-- Raised by `construct` (Machine/Construct.lean), never by `step`: a cartridge with no bank or
  with an image of another size than its bank count says (U7, D18: "no run is constructed").
  Safe: the spec refuses the run as well. -/
  | badCartridge
  deriving DecidableEq, Repr

/-- The flags at power-on: I = 1 and B = 1 (R39), the others as `POWER_ON_REGS` says (D6). -/
def Flags.powerOn (r : PowerOnRegs) : Flags :=
  { n := r.n, v := r.v, b := true, d := r.d, i := true, z := r.z, c := r.c }

/-- All eight PPU register cells zero. -/
def PpuRegs.zero : PpuRegs :=
  { ctrl := 0, mask := 0, status := 0, oamAddr := 0, oamData := 0, scroll := 0, addr := 0, data := 0 }

/-- The power-on state (R39, R280): the values the source gives (SP = 0xFF, I = B = 1, and
`reset_requested` set, so that the first tick services reset), and those of decision D6. The
parameters have their defaults. The bank count and the contents of the three stores are the
driver's, and the spec gives them no value: DESIGN CHOICE, log entry 2. Nor does it give the count
and the trace one before any tick: 0 and empty are DESIGN CHOICE, log entry 5. -/
def State.reset : State :=
  { a := 0, x := 0, y := 0, sp := 0xFF, pc := 0x0000
    p := { n := false, v := false, b := true, d := false, i := true, z := false, c := false }
    resetReq := true, nmiReq := false, irqReq := false
    ram := [], ppu := PpuRegs.zero, prg := [], params := Params.defaults 2
    cycles := 0, trace := [] }

end Sys2Proof.Machine
end

