-- ==== Sys2Proof/Machine/Flags.lean ====
section
/-!
DEFINITION. The packed status byte (R33, R34) and every flag computation of the spec: zero and
negative from a result (R126), add and subtract with carry (R160 to R162), BIT (R166), compare
(R167 to R169), and the bit a shift or rotate moves into C (R190 to R194).
-/

namespace Sys2Proof.Machine

/-- The packed status with `b` at bit 4 and 1 at bit 5, in the order `N V 1 B D I Z C` (R33). -/
def Flags.packWith (f : Flags) (b : Bool) : Byte :=
  flagAt f.n 7 ||| flagAt f.v 6 ||| flagAt true 5 ||| flagAt b 4 |||
    flagAt f.d 3 ||| flagAt f.i 2 ||| flagAt f.z 1 ||| flagAt f.c 0

/-- The packed status byte `P`, with the stored B (R33). -/
def Flags.pack (f : Flags) : Byte := f.packWith f.b

/-- `Ppush(b)`: the byte a push of P writes, bit 4 fixed by the event and bit 5 set (R34). -/
def Flags.ppush (f : Flags) (b : Bool) : Byte :=
  (f.pack &&& ~~~0x10#8) ||| flagAt b 4 ||| 0x20#8

/-- The flags a popped byte gives; bit 5 is ignored, because U stays 1 (R33, R223, R232). -/
def Flags.unpack (p : Byte) : Flags :=
  { n := bit p 7, v := bit p 6, b := bit p 4, d := bit p 3, i := bit p 2, z := bit p 1, c := bit p 0 }

/-- `SetZN(r)`: `Z <- (r == 0x00)`, `N <- r[7]` (R126). -/
def Flags.setZN (f : Flags) (r : Byte) : Flags :=
  { f with z := r == 0x00#8, n := bit r 7 }

/-- The carry as a 16-bit addend, `zext_16(C)` (R161). -/
def carryIn (c : Bool) : Word := if c then 1#16 else 0#16

/-- The wide sum `s` of R161: `zext_16(A) + zext_16(M) + zext_16(C)`. -/
def wideSum (a m : Byte) (c : Bool) : Word := zext16 a + zext16 m + carryIn c

/-- The result of ADC, `s[7:0]` (R161). -/
def addResult (a m : Byte) (c : Bool) : Byte := lo (wideSum a m c)

/-- The carry out of ADC, `s > 0xFF` (R161). -/
def addCarry (a m : Byte) (c : Bool) : Bool := BitVec.ult 0xFF#16 (wideSum a m c)

/-- The overflow of ADC: the operands' signs agree and differ from the result's (R161). -/
def addOverflow (a m : Byte) (c : Bool) : Bool :=
  ((~~~(a ^^^ m)) &&& (a ^^^ addResult a m c) &&& 0x80#8) != 0#8

/-- The flags ADC leaves: C, V, Z and N, whatever D holds (R161, R176). -/
def Flags.afterAdd (f : Flags) (a m : Byte) : Flags :=
  { f with c := addCarry a m f.c, v := addOverflow a m f.c }.setZN (addResult a m f.c)

/-- BIT: Z from `A & M`, N and V from the operand's bits 7 and 6 (R166). -/
def Flags.afterBit (f : Flags) (a m : Byte) : Flags :=
  { f with z := (a &&& m) == 0x00#8, n := bit m 7, v := bit m 6 }

/-- A compare of register `r` with `m`: C is `r >= m` unsigned, Z equality, N bit 7 of the 8-bit
difference (R167 to R169). -/
def Flags.afterCompare (f : Flags) (r m : Byte) : Flags :=
  { f with c := BitVec.ule m r, z := r == m, n := bit (r - m) 7 }

/-- A shift or rotate: C is the bit shifted out, Z and N from the result (R190). -/
def Flags.afterShift (f : Flags) (out : Bool) (r : Byte) : Flags :=
  { f with c := out }.setZN r

/-- ASL: bit 0 of the result is 0 (R191). -/
def aslResult (v : Byte) : Byte := v <<< 1

/-- LSR: bit 7 of the result is 0 (R192). -/
def lsrResult (v : Byte) : Byte := v >>> 1

/-- ROL: the old C goes into bit 0 (R193). -/
def rolResult (v : Byte) (c : Bool) : Byte := (v <<< 1) ||| flagAt c 0

/-- ROR: the old C goes into bit 7 (R194). -/
def rorResult (v : Byte) (c : Bool) : Byte := flagAt c 7 ||| (v >>> 1)

end Sys2Proof.Machine
end

