-- ==== Sys2Proof/Machine/Ops.lean ====
section
/-!
DEFINITION. The named operations over memory and registers: sparse memories in canonical form, the
bus and its memory map (spec/20_memory.md), the access trace, the stack, the completion of an
instruction, the one operation that enters a handler (BRK, NMI and IRQ) and the return beside it.
-/

namespace Sys2Proof.Machine

/-! ### Sparse memories -/

/-- The cell at index `k`. -/
def Memory.read : Memory → Nat → Byte
  | [], _ => unlisted
  | (j, b) :: rest, k => if j = k then b else Memory.read rest k

/-- Write `v` at index `k`, keeping the canonical form: writing what an unlisted index reads as
takes the entry out. -/
def Memory.write : Memory → Nat → Byte → Memory
  | [], k, v => if v = unlisted then [] else [(k, v)]
  | (j, b) :: rest, k, v =>
    if k < j then (if v = unlisted then (j, b) :: rest else (k, v) :: (j, b) :: rest)
    else if k = j then (if v = unlisted then rest else (k, v) :: rest)
    else (j, b) :: Memory.write rest k v

/-- The cells of a list of bytes laid out from index `k` on. -/
def Memory.ofBytes : List Byte → Nat → Memory
  | [], _ => []
  | b :: bs, k => if b = unlisted then Memory.ofBytes bs (k + 1) else (k, b) :: Memory.ofBytes bs (k + 1)

/-- The canonical form: indices strictly rising, no entry equal to what an unlisted index reads as. -/
abbrev Memory.wf (m : Memory) : Prop :=
  m.Pairwise (fun p q => p.1 < q.1) ∧ ∀ p ∈ m, p.2 ≠ unlisted

/-- Every listed index lies below `n`. -/
abbrev Memory.below (m : Memory) (n : Nat) : Prop := ∀ p ∈ m, p.1 < n

/-! ### The PPU register cells -/

/-- The PPU register cell of an index (R55); the bus only forms indices 0 to 7. -/
def PpuRegs.get (r : PpuRegs) : Nat → Byte
  | 0 => r.ctrl
  | 1 => r.mask
  | 2 => r.status
  | 3 => r.oamAddr
  | 4 => r.oamData
  | 5 => r.scroll
  | 6 => r.addr
  | _ => r.data

/-- Write a PPU register cell by index (R55). -/
def PpuRegs.set (r : PpuRegs) (k : Nat) (v : Byte) : PpuRegs :=
  match k with
  | 0 => { r with ctrl := v }
  | 1 => { r with mask := v }
  | 2 => { r with status := v }
  | 3 => { r with oamAddr := v }
  | 4 => { r with oamData := v }
  | 5 => { r with scroll := v }
  | 6 => { r with addr := v }
  | _ => { r with data := v }

/-! ### Register writes -/

/-- `A <- v` -/
def State.withA (s : State) (v : Byte) : State := { s with a := v }

/-- `X <- v` -/
def State.withX (s : State) (v : Byte) : State := { s with x := v }

/-- `Y <- v` -/
def State.withY (s : State) (v : Byte) : State := { s with y := v }

/-- `SP <- v` -/
def State.withSp (s : State) (v : Byte) : State := { s with sp := v }

/-- `PC <- w` -/
def State.withPc (s : State) (w : Word) : State := { s with pc := w }

/-- Write the stored flags. -/
def State.withFlags (s : State) (f : Flags) : State := { s with p := f }

/-- `SetZN(r)` (R126). -/
def State.setZN (s : State) (r : Byte) : State := s.withFlags (s.p.setZN r)

/-- Set the count the tick returns (R101). -/
def State.withCycles (s : State) (n : Cycles) : State := { s with cycles := n }

/-- Append one access to the tick's trace (R72). -/
def State.logged (s : State) (acc : Access) : State := { s with trace := s.trace ++ [acc] }

/-! ### The bus -/

/-- The regions of the memory map (R51, R53 to R59). -/
inductive Region where
  | ram | ppu | apuIo | expansion | cartRam | prg
  deriving DecidableEq, Repr

/-- The region an address lies in: "first matching range wins", every address has one (R51, R60). -/
def regionOf (a : Word) : Region :=
  if a.toNat ≤ 0x1FFF then .ram
  else if a.toNat ≤ 0x3FFF then .ppu
  else if a.toNat ≤ 0x401F then .apuIo
  else if a.toNat ≤ 0x5FFF then .expansion
  else if a.toNat ≤ 0x7FFF then .cartRam
  else .prg

/-- The RAM index of an address: `a & 0x07FF` (R53). -/
def ramIndex (a : Word) : Nat := (a &&& 0x07FF#16).toNat

/-- The PPU register index of an address: `a & 0x0007` (R54). -/
def ppuIndex (a : Word) : Nat := (a &&& 0x0007#16).toNat

/-- The PRG offset of an address: `(a - 0x8000) mod (PRG_BANKS * 16384)` (R59). -/
def prgOffset (banks : Nat) (a : Word) : Nat := (a.toNat - 0x8000) % (banks * bankSize)

/-- The byte a bus read returns (R51), without the trace. The three stub windows read 0 (R56 to
R58). -/
def State.peek (s : State) (a : Word) : Byte :=
  match regionOf a with
  | .ram => s.ram.read (ramIndex a)
  | .ppu => s.ppu.get (ppuIndex a)
  | .apuIo => 0x00
  | .expansion => 0x00
  | .cartRam => 0x00
  | .prg => s.prg.read (prgOffset s.params.prgBanks a)

/-- The state change of a bus write (R52), without the trace. Writes outside RAM and the PPU
registers are discarded. -/
def State.poke (s : State) (a : Word) (v : Byte) : State :=
  match regionOf a with
  | .ram => { s with ram := s.ram.write (ramIndex a) v }
  | .ppu => { s with ppu := s.ppu.set (ppuIndex a) v }
  | .apuIo => s
  | .expansion => s
  | .cartRam => s
  | .prg => s

/-- `MemRead(a, 1)`: the byte, and the state with the read in its trace (R13, R51, R72). -/
def memRead (a : Word) (s : State) : Byte × State := (s.peek a, s.logged (.read a (s.peek a)))

/-- `MemWrite(a, 1, v)`, in the trace whether discarded or not (R13, R52, R72). -/
def memWrite (a : Word) (v : Byte) (s : State) : State := (s.poke a v).logged (.write a v)

/-- `MemRead(a, 2)`: low byte at `a` first, then high byte at `a +16 1` (R13, R61, R62). -/
def memRead16 (a : Word) (s : State) : Word × State :=
  let l := memRead a s
  let h := memRead (a + 1) l.2
  (join h.1 l.1, h.2)

/-- `MemWrite(a, 2, w)`: low byte at `a`, then high byte at `a +16 1` (R13). No instruction uses
it: the only 16-bit writes of the spec are the stack's (R64). -/
def memWrite16 (a w : Word) (s : State) : State := memWrite (a + 1) (hi w) (memWrite a (lo w) s)

/-! ### The stack -/

/-- The stack address of SP, `{0x01, SP}` (R23). -/
def stackAddr (sp : Byte) : Word := join 0x01 sp

/-- `Push(v)`: write at `{0x01, SP}`, then `SP <- SP -8 1` (R63). -/
def push (v : Byte) (s : State) : State :=
  let t := memWrite (stackAddr s.sp) v s
  t.withSp (t.sp - 1)

/-- `Pop()`: `SP <- SP +8 1`, then read at `{0x01, SP}` (R64). -/
def pop (s : State) : Byte × State :=
  let t := s.withSp (s.sp + 1)
  memRead (stackAddr t.sp) t

/-- `Push16(w)`: high byte first (R64). -/
def push16 (w : Word) (s : State) : State := push (lo w) (push (hi w) s)

/-- `Pop16()`: low byte first (R64). -/
def pop16 (s : State) : Word × State :=
  let l := pop s
  let h := pop l.2
  (join h.1 l.1, h.2)

/-! ### Completing an instruction -/

/-- An instruction that transfers no control ends here: `PC <- next = PC0 +16 len` (R104, R105),
with the count it returns (R120). -/
def retire (len : Nat) (cyc : Cycles) (s : State) : Host.Outcome State Fault Refusal :=
  .next ((s.withPc (s.pc + BitVec.ofNat 16 len)).withCycles cyc)

/-- An instruction that writes PC itself ends here (R104). -/
def transfer (target : Word) (cyc : Cycles) (s : State) : Host.Outcome State Fault Refusal :=
  .next ((s.withPc target).withCycles cyc)

/-! ### Entering a handler, and returning from one -/

/-- The NMI vector (R74). -/
def nmiVector : Word := 0xFFFA

/-- The reset vector (R74). -/
def resetVector : Word := 0xFFFC

/-- The IRQ/BRK vector (R74). -/
def irqVector : Word := 0xFFFE

/-- Enter a handler: push `ret` (high, then low), push the status with bit 4 as the event says
(R34), set I, load PC from the little-endian word at `vector`. One operation for BRK (R231:
`b = 1`) and for NMI and IRQ entry (R258: `b = 0`). C, Z, D, V, N, the stored B, A, X and Y stay. -/
def enterHandler (vector ret : Word) (b : Bool) (s : State) : State :=
  let t := push (s.p.ppush b) (push16 ret s)
  let u := t.withFlags { t.p with i := true }
  let v := memRead16 vector u
  v.2.withPc v.1

/-- Pull the status: C, Z, I, D, B, V and N from the popped byte, U stays 1 (R223, R232). -/
def pullStatus (s : State) : State :=
  let p := pop s
  p.2.withFlags (Flags.unpack p.1)

/-- Return from a handler: pull the status, then PC (low, then high), with no +1 (R232, R262). -/
def returnFromHandler (s : State) : State :=
  let r := pop16 (pullStatus s)
  r.2.withPc r.1

end Sys2Proof.Machine
end

