-- ==== Sys2Proof/Machine/Operands.lean ====
section
/-!
DEFINITION. Every operand form: effective addresses and page crossing (R106 to R118), the operand
accesses of the read, write and read-modify-write classes (R119), and the cycle cost of each form
(R84, R120 to R122).
-/

namespace Sys2Proof.Machine

/-! ### Effective addresses -/

/-- The two zero-page addresses a pointer is read from, the second wrapping in page 0 (R116, R117;
decision D19). -/
def pointerAddrs (p : Byte) : List Word := [zext16 p, zext16 (p + 1)]

/-- The pointer stored at zero-page address `p`, low byte first (R116, R117). -/
def pointerAt (p : Byte) (s : State) : Word := join (s.peek (zext16 (p + 1))) (s.peek (zext16 p))

/-- The addresses a mode's pointer is read from, in order; none for a mode without one. -/
def pointerReads (m : MemMode) (s : State) : List Word :=
  match m with
  | .indX a => pointerAddrs (a + s.x)
  | .indY a => pointerAddrs a
  | .zp _ | .zpX _ | .zpY _ | .abs _ | .absX _ | .absY _ => []

/-- The effective address of a mode (R109 to R114, R116, R117). -/
def ea (m : MemMode) (s : State) : Word :=
  match m with
  | .zp a => zext16 a
  | .zpX a => zext16 (a + s.x)
  | .zpY a => zext16 (a + s.y)
  | .abs w => w
  | .absX w => w + zext16 s.x
  | .absY w => w + zext16 s.y
  | .indX a => pointerAt (a + s.x) s
  | .indY a => pointerAt a s + zext16 s.y

/-- `hi(base) != hi(EA)`. -/
def pageDiffers (base target : Word) : Bool := hi base != hi target

/-- `crossed` of a mode: whether adding the index changes the high byte (R109 to R114, R116, R117). -/
def crosses (m : MemMode) (s : State) : Bool :=
  match m with
  | .absX w => pageDiffers w (ea m s)
  | .absY w => pageDiffers w (ea m s)
  | .indY a => pageDiffers (pointerAt a s) (ea m s)
  | .zp _ | .zpX _ | .zpY _ | .abs _ | .indX _ => false

/-! ### Operand accesses -/

/-- Perform reads for the trace alone, in order. -/
def readAll (as : List Word) (s : State) : State := as.foldl (fun t a => (memRead a t).2) s

/-- Read the mode's pointer, if it has one: low byte first, before the operand access (R119). -/
def readPointer (m : MemMode) (s : State) : State := readAll (pointerReads m s) s

/-- The operand of a memory mode: exactly one read at EA, after the pointer reads (R119). -/
def readMem (m : MemMode) (s : State) : Byte × State := memRead (ea m s) (readPointer m s)

/-- The operand `M` of a read-class instruction: the operand byte in Immediate, else one read at EA
(R108, R119). -/
def readOperand (o : ReadMode) (s : State) : Byte × State :=
  match o with
  | .imm v => (v, s)
  | .mem m => readMem m s

/-- The write of a write-class instruction: exactly one write at EA, which is not read (R119). -/
def writeMem (m : MemMode) (v : Byte) (s : State) : State := memWrite (ea m s) v (readPointer m s)

/-- The read and write of a read-modify-write instruction: one read at EA, then one write of the
result there, with no dummy write (R119). Answers the value read and the state after both. -/
def modifyMem (m : MemMode) (f : Byte → Byte) (s : State) : Byte × State :=
  let r := readMem m s
  (r.1, memWrite (ea m s) (f r.1) r.2)

/-- A shift's operand and result: in A with no memory access (R107), or read and written at EA
(R190). Answers the value before the shift. -/
def modifyShift (o : ShiftMode) (f : Byte → Byte) (s : State) : Byte × State :=
  match o with
  | .acc => (s.a, s.withA (f s.a))
  | .mem m => modifyMem m f s

/-! ### Cycle costs -/

/-- One cycle when the condition holds. -/
def extra (b : Bool) : Cycles := if b then 1 else 0

/-- The base cost of a read-class instruction in a memory mode (R84). -/
def readBase : MemMode → Cycles
  | .zp _ => 3
  | .zpX _ | .zpY _ | .abs _ | .absX _ | .absY _ => 4
  | .indX _ => 6
  | .indY _ => 5

/-- The base cost of a store in a memory mode (R84); the indexed modes include the index cycle. -/
def writeBase : MemMode → Cycles
  | .zp _ => 3
  | .zpX _ | .zpY _ | .abs _ => 4
  | .absX _ | .absY _ => 5
  | .indX _ | .indY _ => 6

/-- The base cost of a read-modify-write instruction in a memory mode (R84 for Zero Page, Zero
Page,X, Absolute and Absolute,X). The table has no such instruction in the other four modes; a
term in one is not well-formed, no byte decodes to it, and its count is a DESIGN CHOICE (log
entry 4). -/
def rmwBase : MemMode → Cycles
  | .zp _ => 5
  | .zpX _ | .abs _ => 6
  | .absX _ => 7
  | .zpY _ => 6
  | .absY _ => 7
  | .indX _ | .indY _ => 8

/-- The cost of a read-class instruction: one more when the page is crossed (R120, R121). -/
def readCost (o : ReadMode) (s : State) : Cycles :=
  match o with
  | .imm _ => 2
  | .mem m => readBase m + extra (crosses m s)

/-- Whether a store or a read-modify-write instruction pays the page-cross cycle (R121). -/
def paysIndexed (s : State) : Bool :=
  match s.params.pagePenaltyScope with
  | .readsOnly => false
  | .allIndexed => true

/-- The cost of a store: a page cross counts only under `all_indexed` (R121; decision D4). -/
def writeCost (m : MemMode) (s : State) : Cycles :=
  writeBase m + extra (paysIndexed s && crosses m s)

/-- The cost of a read-modify-write instruction, likewise (R121). -/
def rmwCost (m : MemMode) (s : State) : Cycles :=
  rmwBase m + extra (paysIndexed s && crosses m s)

/-- The cost of a shift: 2 on the accumulator (R84). -/
def shiftCost (o : ShiftMode) (s : State) : Cycles :=
  match o with
  | .acc => 2
  | .mem m => rmwCost m s

/-! ### Relative -/

/-- The target of a branch: `next +16 sext_16(op1)` (R118). -/
def branchTarget (next : Word) (off : Byte) : Word := next + sext16 off

/-- The cost of a branch: 2, one more when taken, and one more when the target's page differs from
the page of `next` (R122; decision D5). -/
def branchCost (taken : Bool) (next : Word) (off : Byte) : Cycles :=
  2 + extra taken + extra (taken && pageDiffers next (branchTarget next off))

end Sys2Proof.Machine
end

