-- ==== Sys2Proof/Machine/Arith.lean ====
section
/-!
DEFINITION. The meanings of arithmetic, logic, compare, increment and decrement (R160 to R176,
spec/42_arith_logic_compare.md).
-/

namespace Sys2Proof.Machine

/-- Add `m` and C into A with the flags of R161: the shared half of ADC and SBC. -/
def addInto (m : Byte) (s : State) : State :=
  (s.withA (addResult s.a m s.p.c)).withFlags (s.p.afterAdd s.a m)

/-- ADC (R161): binary whatever D holds (R176). -/
def execAdc (o : ReadMode) (s : State) : Host.Outcome State Fault Refusal :=
  let r := readOperand o s
  retire o.size (readCost o s) (addInto r.1 r.2)

/-- SBC: ADC against the complemented operand, `A + (~M) + C` (R162). -/
def execSbc (o : ReadMode) (s : State) : Host.Outcome State Fault Refusal :=
  let r := readOperand o s
  retire o.size (readCost o s) (addInto (~~~r.1) r.2)

/-- AND: `A <- A & M; SetZN(A)` (R163). -/
def execAnd (o : ReadMode) (s : State) : Host.Outcome State Fault Refusal :=
  let r := readOperand o s
  retire o.size (readCost o s) ((r.2.withA (s.a &&& r.1)).setZN (s.a &&& r.1))

/-- ORA: `A <- A | M; SetZN(A)` (R164). -/
def execOra (o : ReadMode) (s : State) : Host.Outcome State Fault Refusal :=
  let r := readOperand o s
  retire o.size (readCost o s) ((r.2.withA (s.a ||| r.1)).setZN (s.a ||| r.1))

/-- EOR: `A <- A ^ M; SetZN(A)` (R165). -/
def execEor (o : ReadMode) (s : State) : Host.Outcome State Fault Refusal :=
  let r := readOperand o s
  retire o.size (readCost o s) ((r.2.withA (s.a ^^^ r.1)).setZN (s.a ^^^ r.1))

/-- BIT: Z, N and V; A stays (R166). -/
def execBit (m : MemMode) (s : State) : Host.Outcome State Fault Refusal :=
  let r := readMem m s
  retire m.size (readCost (.mem m) s) (r.2.withFlags (s.p.afterBit s.a r.1))

/-- CMP (R167). -/
def execCmp (o : ReadMode) (s : State) : Host.Outcome State Fault Refusal :=
  let r := readOperand o s
  retire o.size (readCost o s) (r.2.withFlags (s.p.afterCompare s.a r.1))

/-- CPX (R168). -/
def execCpx (o : ReadMode) (s : State) : Host.Outcome State Fault Refusal :=
  let r := readOperand o s
  retire o.size (readCost o s) (r.2.withFlags (s.p.afterCompare s.x r.1))

/-- CPY (R169). -/
def execCpy (o : ReadMode) (s : State) : Host.Outcome State Fault Refusal :=
  let r := readOperand o s
  retire o.size (readCost o s) (r.2.withFlags (s.p.afterCompare s.y r.1))

/-- INC: `r <- M +8 1; MemWrite(EA, 1, r); SetZN(r)` (R170). -/
def execInc (m : MemMode) (s : State) : Host.Outcome State Fault Refusal :=
  let r := modifyMem m (fun v => v + 1) s
  retire m.size (rmwCost m s) (r.2.setZN (r.1 + 1))

/-- DEC: `r <- M -8 1; MemWrite(EA, 1, r); SetZN(r)` (R171). -/
def execDec (m : MemMode) (s : State) : Host.Outcome State Fault Refusal :=
  let r := modifyMem m (fun v => v - 1) s
  retire m.size (rmwCost m s) (r.2.setZN (r.1 - 1))

/-- INX (R172). -/
def execInx (s : State) : Host.Outcome State Fault Refusal :=
  retire 1 2 ((s.withX (s.x + 1)).setZN (s.x + 1))

/-- INY (R173). -/
def execIny (s : State) : Host.Outcome State Fault Refusal :=
  retire 1 2 ((s.withY (s.y + 1)).setZN (s.y + 1))

/-- DEX (R174). -/
def execDex (s : State) : Host.Outcome State Fault Refusal :=
  retire 1 2 ((s.withX (s.x - 1)).setZN (s.x - 1))

/-- DEY (R175). -/
def execDey (s : State) : Host.Outcome State Fault Refusal :=
  retire 1 2 ((s.withY (s.y - 1)).setZN (s.y - 1))

end Sys2Proof.Machine
end

