-- ==== Sys2Proof/Machine/Control.lean ====
section
/-!
DEFINITION. The meanings of branches, jumps and subroutine linkage (R200 to R213,
spec/44_control_flow.md).
-/

namespace Sys2Proof.Machine

/-- The common form of the eight branches (R200): `PC <- target` when taken, else `PC <- next`,
with `next = PC0 +16 2`. -/
def branchIf (taken : Bool) (off : Byte) (s : State) : Host.Outcome State Fault Refusal :=
  let next := s.pc + 2
  transfer (if taken then branchTarget next off else next) (branchCost taken next off) s

/-- BPL: taken when N = 0 (R201). -/
def execBpl (off : Byte) (s : State) : Host.Outcome State Fault Refusal := branchIf (!s.p.n) off s

/-- BMI: taken when N = 1 (R202). -/
def execBmi (off : Byte) (s : State) : Host.Outcome State Fault Refusal := branchIf s.p.n off s

/-- BVC: taken when V = 0 (R203). -/
def execBvc (off : Byte) (s : State) : Host.Outcome State Fault Refusal := branchIf (!s.p.v) off s

/-- BVS: taken when V = 1 (R204). -/
def execBvs (off : Byte) (s : State) : Host.Outcome State Fault Refusal := branchIf s.p.v off s

/-- BCC: taken when C = 0 (R205). -/
def execBcc (off : Byte) (s : State) : Host.Outcome State Fault Refusal := branchIf (!s.p.c) off s

/-- BCS: taken when C = 1 (R206). -/
def execBcs (off : Byte) (s : State) : Host.Outcome State Fault Refusal := branchIf s.p.c off s

/-- BNE: taken when Z = 0 (R207). -/
def execBne (off : Byte) (s : State) : Host.Outcome State Fault Refusal := branchIf (!s.p.z) off s

/-- BEQ: taken when Z = 1 (R208). -/
def execBeq (off : Byte) (s : State) : Host.Outcome State Fault Refusal := branchIf s.p.z off s

/-- JMP absolute: `PC <- {op2, op1}` (R209). -/
def execJmpAbs (target : Word) (s : State) : Host.Outcome State Fault Refusal := transfer target 3 s

/-- Where JMP indirect reads the high byte of its target: in the page of `ptr` under
`JMP_IND_PAGE_WRAP`, else at `ptr +16 1` (R115; decision D3). -/
def indirectHigh (wrap : Bool) (ptr : Word) : Word :=
  if wrap then join (hi ptr) (lo ptr + 1) else ptr + 1

/-- JMP indirect: low byte at `ptr`, then the high byte (R115, R210). -/
def execJmpInd (ptr : Word) (s : State) : Host.Outcome State Fault Refusal :=
  let l := memRead ptr s
  let h := memRead (indirectHigh s.params.jmpIndPageWrap ptr) l.2
  transfer (join h.1 l.1) 5 h.2

/-- JSR: push the address of its last byte, `PC0 +16 2`, high byte first; the target is the operand
fetched before the pushes (R211; decision D27). -/
def execJsr (target : Word) (s : State) : Host.Outcome State Fault Refusal :=
  transfer target 6 (push16 (s.pc + 2) s)

/-- RTS: pop low, then high, and add 1 (R212). -/
def execRts (s : State) : Host.Outcome State Fault Refusal :=
  let r := pop16 s
  transfer (r.1 + 1) 6 r.2

end Sys2Proof.Machine
end

