-- ==== Sys2Proof/Machine/LoadStore.lean ====
section
/-!
DEFINITION. The meanings of loads, stores and register transfers (R140 to R151,
spec/41_load_store_transfer.md).
-/

namespace Sys2Proof.Machine

/-- LDA: `A <- M; SetZN(A)` (R140). -/
def execLda (o : ReadMode) (s : State) : Host.Outcome State Fault Refusal :=
  let r := readOperand o s
  retire o.size (readCost o s) ((r.2.withA r.1).setZN r.1)

/-- LDX: `X <- M; SetZN(X)` (R141). -/
def execLdx (o : ReadMode) (s : State) : Host.Outcome State Fault Refusal :=
  let r := readOperand o s
  retire o.size (readCost o s) ((r.2.withX r.1).setZN r.1)

/-- LDY: `Y <- M; SetZN(Y)` (R142). -/
def execLdy (o : ReadMode) (s : State) : Host.Outcome State Fault Refusal :=
  let r := readOperand o s
  retire o.size (readCost o s) ((r.2.withY r.1).setZN r.1)

/-- STA: `MemWrite(EA, 1, A)`; no flag (R143). -/
def execSta (m : MemMode) (s : State) : Host.Outcome State Fault Refusal :=
  retire m.size (writeCost m s) (writeMem m s.a s)

/-- STX: `MemWrite(EA, 1, X)`; no flag (R144). -/
def execStx (m : MemMode) (s : State) : Host.Outcome State Fault Refusal :=
  retire m.size (writeCost m s) (writeMem m s.x s)

/-- STY: `MemWrite(EA, 1, Y)`; no flag (R145). -/
def execSty (m : MemMode) (s : State) : Host.Outcome State Fault Refusal :=
  retire m.size (writeCost m s) (writeMem m s.y s)

/-- TAX: `X <- A; SetZN(X)` (R146). -/
def execTax (s : State) : Host.Outcome State Fault Refusal := retire 1 2 ((s.withX s.a).setZN s.a)

/-- TAY: `Y <- A; SetZN(Y)` (R147). -/
def execTay (s : State) : Host.Outcome State Fault Refusal := retire 1 2 ((s.withY s.a).setZN s.a)

/-- TXA: `A <- X; SetZN(A)` (R148). -/
def execTxa (s : State) : Host.Outcome State Fault Refusal := retire 1 2 ((s.withA s.x).setZN s.x)

/-- TYA: `A <- Y; SetZN(A)` (R149). -/
def execTya (s : State) : Host.Outcome State Fault Refusal := retire 1 2 ((s.withA s.y).setZN s.y)

/-- TSX: `X <- SP; SetZN(X)` (R150). -/
def execTsx (s : State) : Host.Outcome State Fault Refusal := retire 1 2 ((s.withX s.sp).setZN s.sp)

/-- TXS: `SP <- X`; no flag (R151; decision D14). -/
def execTxs (s : State) : Host.Outcome State Fault Refusal := retire 1 2 (s.withSp s.x)

end Sys2Proof.Machine
end

