-- ==== Sys2Proof/Machine/Shift.lean ====
section
/-!
DEFINITION. The meanings of the shifts and rotates, on A and on memory (R190 to R194,
spec/43_shift_rotate.md). The operand is read once; C takes the bit shifted out.
-/

namespace Sys2Proof.Machine

/-- ASL (R191). -/
def execAsl (o : ShiftMode) (s : State) : Host.Outcome State Fault Refusal :=
  let r := modifyShift o aslResult s
  retire o.size (shiftCost o s) (r.2.withFlags (s.p.afterShift (bit r.1 7) (aslResult r.1)))

/-- LSR (R192). -/
def execLsr (o : ShiftMode) (s : State) : Host.Outcome State Fault Refusal :=
  let r := modifyShift o lsrResult s
  retire o.size (shiftCost o s) (r.2.withFlags (s.p.afterShift (bit r.1 0) (lsrResult r.1)))

/-- ROL (R193). -/
def execRol (o : ShiftMode) (s : State) : Host.Outcome State Fault Refusal :=
  let r := modifyShift o (fun v => rolResult v s.p.c) s
  retire o.size (shiftCost o s) (r.2.withFlags (s.p.afterShift (bit r.1 7) (rolResult r.1 s.p.c)))

/-- ROR (R194). -/
def execRor (o : ShiftMode) (s : State) : Host.Outcome State Fault Refusal :=
  let r := modifyShift o (fun v => rorResult v s.p.c) s
  retire o.size (shiftCost o s) (r.2.withFlags (s.p.afterShift (bit r.1 0) (rorResult r.1 s.p.c)))

end Sys2Proof.Machine
end

