-- ==== Sys2Proof/Machine/System.lean ====
section
/-!
DEFINITION. The meanings of stack, flag and system instructions and of the undefined opcodes (R220
to R236, spec/45_stack_flag_system.md).
-/

namespace Sys2Proof.Machine

/-- PHA: `Push(A)` (R220). -/
def execPha (s : State) : Host.Outcome State Fault Refusal := retire 1 3 (push s.a s)

/-- PHP: `Push(Ppush(1))`; the stored B stays (R221; decision D8). -/
def execPhp (s : State) : Host.Outcome State Fault Refusal := retire 1 3 (push (s.p.ppush true) s)

/-- PLA: `A <- Pop(); SetZN(A)` (R222). -/
def execPla (s : State) : Host.Outcome State Fault Refusal :=
  let r := pop s
  retire 1 4 ((r.2.withA r.1).setZN r.1)

/-- PLP: the flags from the popped byte (R223; decision D9). -/
def execPlp (s : State) : Host.Outcome State Fault Refusal := retire 1 4 (pullStatus s)

/-- CLC (R224). -/
def execClc (s : State) : Host.Outcome State Fault Refusal := retire 1 2 (s.withFlags { s.p with c := false })

/-- SEC (R225). -/
def execSec (s : State) : Host.Outcome State Fault Refusal := retire 1 2 (s.withFlags { s.p with c := true })

/-- CLI: takes effect at the very next tick (R226; decision D13). -/
def execCli (s : State) : Host.Outcome State Fault Refusal := retire 1 2 (s.withFlags { s.p with i := false })

/-- SEI (R227). -/
def execSei (s : State) : Host.Outcome State Fault Refusal := retire 1 2 (s.withFlags { s.p with i := true })

/-- CLD (R228). -/
def execCld (s : State) : Host.Outcome State Fault Refusal := retire 1 2 (s.withFlags { s.p with d := false })

/-- SED (R229). -/
def execSed (s : State) : Host.Outcome State Fault Refusal := retire 1 2 (s.withFlags { s.p with d := true })

/-- CLV (R230). -/
def execClv (s : State) : Host.Outcome State Fault Refusal := retire 1 2 (s.withFlags { s.p with v := false })

/-- BRK: enter the handler at the IRQ/BRK vector with the address after the padding byte and bit 4
set; it executes whatever I holds, clears no latch and leaves the stored B (R231; decisions D15
and D21). The padding byte's value is ignored (R86). -/
def execBrk (_pad : Byte) (s : State) : Host.Outcome State Fault Refusal :=
  .next ((enterHandler irqVector (s.pc + 2) true s).withCycles 7)

/-- RTI: return from a handler (R232). -/
def execRti (s : State) : Host.Outcome State Fault Refusal :=
  .next ((returnFromHandler s).withCycles 6)

/-- NOP (R233). -/
def execNop (s : State) : Host.Outcome State Fault Refusal := retire 1 2 s

/-- An undefined opcode: a one-byte, 2-cycle no-op (R123, R236). -/
def execUndef (_op : Byte) (s : State) : Host.Outcome State Fault Refusal := retire 1 2 s

end Sys2Proof.Machine
end

