-- ==== Sys2Proof/Machine/Engine.lean ====
section
/-!
DEFINITION. The tick state machine around the instructions: which of the four transitions a tick
takes (R100, R256, R257), the reset service (R281), NMI and IRQ entry (R258 to R260), and the fetch
(R103). Machine/Step.lean only calls what stands here and `exec`.
-/

namespace Sys2Proof.Machine

/-- The four logical states of R100. -/
inductive Transition where
  | reset | nmi | irq | execute
  deriving DecidableEq, Repr

/-- The transition a tick takes, by fixed priority: reset, then NMI, then IRQ when I = 0, else an
instruction (R100, R256, R257). -/
def transitionOf (s : State) : Transition :=
  if s.resetReq then .reset
  else if s.nmiReq then .nmi
  else if s.irqReq && !s.p.i then .irq
  else .execute

/-- A tick starts with no accesses and a count of 0 (R72, R101, R124). -/
def beginTick (s : State) : State := { s with cycles := 0, trace := [] }

/-- `ResetService()`: PC from the reset vector, SP = 0xFF, I = 1, B = 1, nothing pushed, everything
else kept (R281, R40; decision D7). -/
def resetService (s : State) : State :=
  let r := memRead16 resetVector s
  ((r.2.withPc r.1).withSp 0xFF).withFlags { r.2.p with i := true, b := true }

/-- The reset tick: the service, then its latch is cleared (R100). -/
def serviceReset (s : State) : State := { resetService (beginTick s) with resetReq := false }

/-- `InterruptEntry(vector)`: push the current PC and the status with bit 4 = 0 (R258). -/
def interruptEntry (vector : Word) (s : State) : State := enterHandler vector s.pc false s

/-- The NMI tick (R259). -/
def serviceNmi (s : State) : State := { interruptEntry nmiVector (beginTick s) with nmiReq := false }

/-- The IRQ tick (R260). -/
def serviceIrq (s : State) : State := { interruptEntry irqVector (beginTick s) with irqReq := false }

/-- The three bytes at PC and the state with their reads in the trace. -/
structure Fetched where
  op : Byte
  l : Byte
  h : Byte
  state : State
  deriving DecidableEq, Repr

/-- `Fetch(PC0)`: always three reads, wrapping modulo 65536 (R103). -/
def fetch (s : State) : Fetched :=
  let op := memRead s.pc s
  let l := memRead (s.pc + 1) op.2
  let h := memRead (s.pc + 2) l.2
  { op := op.1, l := l.1, h := h.1, state := h.2 }

/-- The instruction a tick executes (R102). -/
def fetchedInstr (s : State) : Instr :=
  let f := fetch (beginTick s)
  decode f.op f.l f.h

/-- The state its handler starts from: PC is still the opcode's address (R104). -/
def afterFetch (s : State) : State := (fetch (beginTick s)).state

/-! ### Placing an instruction from outside

The host's load of a program, for `State.withFetchWord`; no rule of a tick. -/

/-- Whether a byte can be laid at an address so that a fetch reads it: not in the three stub
windows, which read 0. -/
def holdsBytes (a : Word) : Bool :=
  match regionOf a with
  | .ram => true
  | .ppu => true
  | .apuIo => false
  | .expansion => false
  | .cartRam => false
  | .prg => true

/-- Lay a byte at an address from outside: in RAM or the PPU registers, or into the PRG image. -/
def State.loadByte (s : State) (a : Word) (v : Byte) : State :=
  match regionOf a with
  | .ram => s.poke a v
  | .ppu => s.poke a v
  | .apuIo => s
  | .expansion => s
  | .cartRam => s
  | .prg => { s with prg := s.prg.write (prgOffset s.params.prgBanks a) v }

/-- Where `withFetchWord` lays its bytes: at PC where all three bytes can stand there, else at
0x0200 in RAM. -/
def loadPlace (pc : Word) : Word :=
  if holdsBytes pc && holdsBytes (pc + 1) && holdsBytes (pc + 2) then pc else 0x0200

/-- No latch is pending, so the next tick fetches (R100). -/
def withoutRequests (s : State) : State := { s with resetReq := false, nmiReq := false, irqReq := false }

/-- The state with three bytes laid where the next tick fetches. -/
def placeInstr (op l h : Byte) (s : State) : State :=
  let at' := loadPlace s.pc
  ((((withoutRequests s).withPc at').loadByte at' op).loadByte (at' + 1) l).loadByte (at' + 2) h

end Sys2Proof.Machine
end

