-- ==== Sys2Proof/Machine/Step.lean ====
section
/-!
DEFINITION. One step of the machine is one `tick` of the core: exactly one transition (R100).
-/

namespace Sys2Proof.Machine

/-- One tick (R100, R101): the reset service, an NMI or IRQ entry, or one instruction. -/
def step (s : State) : Host.Outcome State Fault Refusal :=
  match transitionOf s with
  | .reset => .next (serviceReset s)
  | .nmi => .next (serviceNmi s)
  | .irq => .next (serviceIrq s)
  | .execute => exec (fetchedInstr s) (afterFetch s)

/-- `s` with the instruction whose first `nbits` bits are `w` laid where the next tick fetches, and
no request pending, so that the very next step runs it (log entry 6). -/
def State.withFetchWord (s : State) (nbits w : Nat) : State :=
  placeInstr (byteOf (w % 2 ^ nbits) 0) (byteOf (w % 2 ^ nbits) 1) (byteOf (w % 2 ^ nbits) 2) s

end Sys2Proof.Machine
end

