-- ==== Sys2Proof/Machine/Table.lean ====
section
/-!
DEFINITION. The opcode table as data: spec/opcode_table.json row by row, with the fields rule R90
gives a row (spec/30_encoding.md), and the mnemonic and mode of an instruction in the table's
terms. The machine does not run from this file; the statements hold the decoder, the lengths and
the cycle counts against it.
-/

namespace Sys2Proof

/-- The addressing modes (R81, R106 to R118). -/
inductive Mode where
  | implied | accumulator | immediate | zeroPage | zeroPageX | zeroPageY | absolute | absoluteX
  | absoluteY | indirect | indexedIndirect | indirectIndexed | relative
  deriving DecidableEq, Repr

/-- The `class` field (R90, R119). -/
inductive InstrClass where
  | read | write | rmw | accumulator | branch | jump | interrupt | stack | implied | undefined
  deriving DecidableEq, Repr

/-- A row of the table (R90). Its `match` byte is its place in the list; its format (R80) follows
from its length, but for BRK, which is F1 with a padding byte. -/
structure Row where
  mnemonic : String
  mode : Mode
  length : Nat
  baseCycles : Cycles
  /-- pays the page-cross cycle under `reads_only` -/
  pagePenalty : Bool
  /-- pays it under `all_indexed` -/
  pagePenaltyIfAll : Bool
  cls : InstrClass
  deriving DecidableEq, Repr

/-- `defined`: false only for the undefined bytes (R90). -/
def Row.defined (r : Row) : Bool := r.cls != .undefined

/-- `branch_extra`: true for the eight branches (R90). -/
def Row.branchExtra (r : Row) : Bool := r.cls == .branch

/-- `padding_byte`: true for BRK only (R90). -/
def Row.paddingByte (r : Row) : Bool := r.cls == .interrupt

/-- Rows 0x00 to 0x0F. -/
def tableRows0 : List Row :=
  [
   ⟨"BRK", .implied, 2, 7, false, false, .interrupt⟩,
   ⟨"ORA", .indexedIndirect, 2, 6, false, false, .read⟩,
   ⟨"UNDEF", .implied, 1, 2, false, false, .undefined⟩,
   ⟨"UNDEF", .implied, 1, 2, false, false, .undefined⟩,
   ⟨"UNDEF", .implied, 1, 2, false, false, .undefined⟩,
   ⟨"ORA", .zeroPage, 2, 3, false, false, .read⟩,
   ⟨"ASL", .zeroPage, 2, 5, false, false, .rmw⟩,
   ⟨"UNDEF", .implied, 1, 2, false, false, .undefined⟩,
   ⟨"PHP", .implied, 1, 3, false, false, .stack⟩,
   ⟨"ORA", .immediate, 2, 2, false, false, .read⟩,
   ⟨"ASL", .accumulator, 1, 2, false, false, .accumulator⟩,
   ⟨"UNDEF", .implied, 1, 2, false, false, .undefined⟩,
   ⟨"UNDEF", .implied, 1, 2, false, false, .undefined⟩,
   ⟨"ORA", .absolute, 3, 4, false, false, .read⟩,
   ⟨"ASL", .absolute, 3, 6, false, false, .rmw⟩,
   ⟨"UNDEF", .implied, 1, 2, false, false, .undefined⟩]

/-- Rows 0x10 to 0x1F. -/
def tableRows1 : List Row :=
  [
   ⟨"BPL", .relative, 2, 2, false, false, .branch⟩,
   ⟨"ORA", .indirectIndexed, 2, 5, true, true, .read⟩,
   ⟨"UNDEF", .implied, 1, 2, false, false, .undefined⟩,
   ⟨"UNDEF", .implied, 1, 2, false, false, .undefined⟩,
   ⟨"UNDEF", .implied, 1, 2, false, false, .undefined⟩,
   ⟨"ORA", .zeroPageX, 2, 4, false, false, .read⟩,
   ⟨"ASL", .zeroPageX, 2, 6, false, false, .rmw⟩,
   ⟨"UNDEF", .implied, 1, 2, false, false, .undefined⟩,
   ⟨"CLC", .implied, 1, 2, false, false, .implied⟩,
   ⟨"ORA", .absoluteY, 3, 4, true, true, .read⟩,
   ⟨"UNDEF", .implied, 1, 2, false, false, .undefined⟩,
   ⟨"UNDEF", .implied, 1, 2, false, false, .undefined⟩,
   ⟨"UNDEF", .implied, 1, 2, false, false, .undefined⟩,
   ⟨"ORA", .absoluteX, 3, 4, true, true, .read⟩,
   ⟨"ASL", .absoluteX, 3, 7, false, true, .rmw⟩,
   ⟨"UNDEF", .implied, 1, 2, false, false, .undefined⟩]

/-- Rows 0x20 to 0x2F. -/
def tableRows2 : List Row :=
  [
   ⟨"JSR", .absolute, 3, 6, false, false, .jump⟩,
   ⟨"AND", .indexedIndirect, 2, 6, false, false, .read⟩,
   ⟨"UNDEF", .implied, 1, 2, false, false, .undefined⟩,
   ⟨"UNDEF", .implied, 1, 2, false, false, .undefined⟩,
   ⟨"BIT", .zeroPage, 2, 3, false, false, .read⟩,
   ⟨"AND", .zeroPage, 2, 3, false, false, .read⟩,
   ⟨"ROL", .zeroPage, 2, 5, false, false, .rmw⟩,
   ⟨"UNDEF", .implied, 1, 2, false, false, .undefined⟩,
   ⟨"PLP", .implied, 1, 4, false, false, .stack⟩,
   ⟨"AND", .immediate, 2, 2, false, false, .read⟩,
   ⟨"ROL", .accumulator, 1, 2, false, false, .accumulator⟩,
   ⟨"UNDEF", .implied, 1, 2, false, false, .undefined⟩,
   ⟨"BIT", .absolute, 3, 4, false, false, .read⟩,
   ⟨"AND", .absolute, 3, 4, false, false, .read⟩,
   ⟨"ROL", .absolute, 3, 6, false, false, .rmw⟩,
   ⟨"UNDEF", .implied, 1, 2, false, false, .undefined⟩]

/-- Rows 0x30 to 0x3F. -/
def tableRows3 : List Row :=
  [
   ⟨"BMI", .relative, 2, 2, false, false, .branch⟩,
   ⟨"AND", .indirectIndexed, 2, 5, true, true, .read⟩,
   ⟨"UNDEF", .implied, 1, 2, false, false, .undefined⟩,
   ⟨"UNDEF", .implied, 1, 2, false, false, .undefined⟩,
   ⟨"UNDEF", .implied, 1, 2, false, false, .undefined⟩,
   ⟨"AND", .zeroPageX, 2, 4, false, false, .read⟩,
   ⟨"ROL", .zeroPageX, 2, 6, false, false, .rmw⟩,
   ⟨"UNDEF", .implied, 1, 2, false, false, .undefined⟩,
   ⟨"SEC", .implied, 1, 2, false, false, .implied⟩,
   ⟨"AND", .absoluteY, 3, 4, true, true, .read⟩,
   ⟨"UNDEF", .implied, 1, 2, false, false, .undefined⟩,
   ⟨"UNDEF", .implied, 1, 2, false, false, .undefined⟩,
   ⟨"UNDEF", .implied, 1, 2, false, false, .undefined⟩,
   ⟨"AND", .absoluteX, 3, 4, true, true, .read⟩,
   ⟨"ROL", .absoluteX, 3, 7, false, true, .rmw⟩,
   ⟨"UNDEF", .implied, 1, 2, false, false, .undefined⟩]

/-- Rows 0x40 to 0x4F. -/
def tableRows4 : List Row :=
  [
   ⟨"RTI", .implied, 1, 6, false, false, .jump⟩,
   ⟨"EOR", .indexedIndirect, 2, 6, false, false, .read⟩,
   ⟨"UNDEF", .implied, 1, 2, false, false, .undefined⟩,
   ⟨"UNDEF", .implied, 1, 2, false, false, .undefined⟩,
   ⟨"UNDEF", .implied, 1, 2, false, false, .undefined⟩,
   ⟨"EOR", .zeroPage, 2, 3, false, false, .read⟩,
   ⟨"LSR", .zeroPage, 2, 5, false, false, .rmw⟩,
   ⟨"UNDEF", .implied, 1, 2, false, false, .undefined⟩,
   ⟨"PHA", .implied, 1, 3, false, false, .stack⟩,
   ⟨"EOR", .immediate, 2, 2, false, false, .read⟩,
   ⟨"LSR", .accumulator, 1, 2, false, false, .accumulator⟩,
   ⟨"UNDEF", .implied, 1, 2, false, false, .undefined⟩,
   ⟨"JMP", .absolute, 3, 3, false, false, .jump⟩,
   ⟨"EOR", .absolute, 3, 4, false, false, .read⟩,
   ⟨"LSR", .absolute, 3, 6, false, false, .rmw⟩,
   ⟨"UNDEF", .implied, 1, 2, false, false, .undefined⟩]

/-- Rows 0x50 to 0x5F. -/
def tableRows5 : List Row :=
  [
   ⟨"BVC", .relative, 2, 2, false, false, .branch⟩,
   ⟨"EOR", .indirectIndexed, 2, 5, true, true, .read⟩,
   ⟨"UNDEF", .implied, 1, 2, false, false, .undefined⟩,
   ⟨"UNDEF", .implied, 1, 2, false, false, .undefined⟩,
   ⟨"UNDEF", .implied, 1, 2, false, false, .undefined⟩,
   ⟨"EOR", .zeroPageX, 2, 4, false, false, .read⟩,
   ⟨"LSR", .zeroPageX, 2, 6, false, false, .rmw⟩,
   ⟨"UNDEF", .implied, 1, 2, false, false, .undefined⟩,
   ⟨"CLI", .implied, 1, 2, false, false, .implied⟩,
   ⟨"EOR", .absoluteY, 3, 4, true, true, .read⟩,
   ⟨"UNDEF", .implied, 1, 2, false, false, .undefined⟩,
   ⟨"UNDEF", .implied, 1, 2, false, false, .undefined⟩,
   ⟨"UNDEF", .implied, 1, 2, false, false, .undefined⟩,
   ⟨"EOR", .absoluteX, 3, 4, true, true, .read⟩,
   ⟨"LSR", .absoluteX, 3, 7, false, true, .rmw⟩,
   ⟨"UNDEF", .implied, 1, 2, false, false, .undefined⟩]

/-- Rows 0x60 to 0x6F. -/
def tableRows6 : List Row :=
  [
   ⟨"RTS", .implied, 1, 6, false, false, .jump⟩,
   ⟨"ADC", .indexedIndirect, 2, 6, false, false, .read⟩,
   ⟨"UNDEF", .implied, 1, 2, false, false, .undefined⟩,
   ⟨"UNDEF", .implied, 1, 2, false, false, .undefined⟩,
   ⟨"UNDEF", .implied, 1, 2, false, false, .undefined⟩,
   ⟨"ADC", .zeroPage, 2, 3, false, false, .read⟩,
   ⟨"ROR", .zeroPage, 2, 5, false, false, .rmw⟩,
   ⟨"UNDEF", .implied, 1, 2, false, false, .undefined⟩,
   ⟨"PLA", .implied, 1, 4, false, false, .stack⟩,
   ⟨"ADC", .immediate, 2, 2, false, false, .read⟩,
   ⟨"ROR", .accumulator, 1, 2, false, false, .accumulator⟩,
   ⟨"UNDEF", .implied, 1, 2, false, false, .undefined⟩,
   ⟨"JMP", .indirect, 3, 5, false, false, .jump⟩,
   ⟨"ADC", .absolute, 3, 4, false, false, .read⟩,
   ⟨"ROR", .absolute, 3, 6, false, false, .rmw⟩,
   ⟨"UNDEF", .implied, 1, 2, false, false, .undefined⟩]

/-- Rows 0x70 to 0x7F. -/
def tableRows7 : List Row :=
  [
   ⟨"BVS", .relative, 2, 2, false, false, .branch⟩,
   ⟨"ADC", .indirectIndexed, 2, 5, true, true, .read⟩,
   ⟨"UNDEF", .implied, 1, 2, false, false, .undefined⟩,
   ⟨"UNDEF", .implied, 1, 2, false, false, .undefined⟩,
   ⟨"UNDEF", .implied, 1, 2, false, false, .undefined⟩,
   ⟨"ADC", .zeroPageX, 2, 4, false, false, .read⟩,
   ⟨"ROR", .zeroPageX, 2, 6, false, false, .rmw⟩,
   ⟨"UNDEF", .implied, 1, 2, false, false, .undefined⟩,
   ⟨"SEI", .implied, 1, 2, false, false, .implied⟩,
   ⟨"ADC", .absoluteY, 3, 4, true, true, .read⟩,
   ⟨"UNDEF", .implied, 1, 2, false, false, .undefined⟩,
   ⟨"UNDEF", .implied, 1, 2, false, false, .undefined⟩,
   ⟨"UNDEF", .implied, 1, 2, false, false, .undefined⟩,
   ⟨"ADC", .absoluteX, 3, 4, true, true, .read⟩,
   ⟨"ROR", .absoluteX, 3, 7, false, true, .rmw⟩,
   ⟨"UNDEF", .implied, 1, 2, false, false, .undefined⟩]

/-- Rows 0x80 to 0x8F. -/
def tableRows8 : List Row :=
  [
   ⟨"UNDEF", .implied, 1, 2, false, false, .undefined⟩,
   ⟨"STA", .indexedIndirect, 2, 6, false, false, .write⟩,
   ⟨"UNDEF", .implied, 1, 2, false, false, .undefined⟩,
   ⟨"UNDEF", .implied, 1, 2, false, false, .undefined⟩,
   ⟨"STY", .zeroPage, 2, 3, false, false, .write⟩,
   ⟨"STA", .zeroPage, 2, 3, false, false, .write⟩,
   ⟨"STX", .zeroPage, 2, 3, false, false, .write⟩,
   ⟨"UNDEF", .implied, 1, 2, false, false, .undefined⟩,
   ⟨"DEY", .implied, 1, 2, false, false, .implied⟩,
   ⟨"UNDEF", .implied, 1, 2, false, false, .undefined⟩,
   ⟨"TXA", .implied, 1, 2, false, false, .implied⟩,
   ⟨"UNDEF", .implied, 1, 2, false, false, .undefined⟩,
   ⟨"STY", .absolute, 3, 4, false, false, .write⟩,
   ⟨"STA", .absolute, 3, 4, false, false, .write⟩,
   ⟨"STX", .absolute, 3, 4, false, false, .write⟩,
   ⟨"UNDEF", .implied, 1, 2, false, false, .undefined⟩]

/-- Rows 0x90 to 0x9F. -/
def tableRows9 : List Row :=
  [
   ⟨"BCC", .relative, 2, 2, false, false, .branch⟩,
   ⟨"STA", .indirectIndexed, 2, 6, false, true, .write⟩,
   ⟨"UNDEF", .implied, 1, 2, false, false, .undefined⟩,
   ⟨"UNDEF", .implied, 1, 2, false, false, .undefined⟩,
   ⟨"STY", .zeroPageX, 2, 4, false, false, .write⟩,
   ⟨"STA", .zeroPageX, 2, 4, false, false, .write⟩,
   ⟨"STX", .zeroPageY, 2, 4, false, false, .write⟩,
   ⟨"UNDEF", .implied, 1, 2, false, false, .undefined⟩,
   ⟨"TYA", .implied, 1, 2, false, false, .implied⟩,
   ⟨"STA", .absoluteY, 3, 5, false, true, .write⟩,
   ⟨"TXS", .implied, 1, 2, false, false, .implied⟩,
   ⟨"UNDEF", .implied, 1, 2, false, false, .undefined⟩,
   ⟨"UNDEF", .implied, 1, 2, false, false, .undefined⟩,
   ⟨"STA", .absoluteX, 3, 5, false, true, .write⟩,
   ⟨"UNDEF", .implied, 1, 2, false, false, .undefined⟩,
   ⟨"UNDEF", .implied, 1, 2, false, false, .undefined⟩]

/-- Rows 0xA0 to 0xAF. -/
def tableRowsA : List Row :=
  [
   ⟨"LDY", .immediate, 2, 2, false, false, .read⟩,
   ⟨"LDA", .indexedIndirect, 2, 6, false, false, .read⟩,
   ⟨"LDX", .immediate, 2, 2, false, false, .read⟩,
   ⟨"UNDEF", .implied, 1, 2, false, false, .undefined⟩,
   ⟨"LDY", .zeroPage, 2, 3, false, false, .read⟩,
   ⟨"LDA", .zeroPage, 2, 3, false, false, .read⟩,
   ⟨"LDX", .zeroPage, 2, 3, false, false, .read⟩,
   ⟨"UNDEF", .implied, 1, 2, false, false, .undefined⟩,
   ⟨"TAY", .implied, 1, 2, false, false, .implied⟩,
   ⟨"LDA", .immediate, 2, 2, false, false, .read⟩,
   ⟨"TAX", .implied, 1, 2, false, false, .implied⟩,
   ⟨"UNDEF", .implied, 1, 2, false, false, .undefined⟩,
   ⟨"LDY", .absolute, 3, 4, false, false, .read⟩,
   ⟨"LDA", .absolute, 3, 4, false, false, .read⟩,
   ⟨"LDX", .absolute, 3, 4, false, false, .read⟩,
   ⟨"UNDEF", .implied, 1, 2, false, false, .undefined⟩]

/-- Rows 0xB0 to 0xBF. -/
def tableRowsB : List Row :=
  [
   ⟨"BCS", .relative, 2, 2, false, false, .branch⟩,
   ⟨"LDA", .indirectIndexed, 2, 5, true, true, .read⟩,
   ⟨"UNDEF", .implied, 1, 2, false, false, .undefined⟩,
   ⟨"UNDEF", .implied, 1, 2, false, false, .undefined⟩,
   ⟨"LDY", .zeroPageX, 2, 4, false, false, .read⟩,
   ⟨"LDA", .zeroPageX, 2, 4, false, false, .read⟩,
   ⟨"LDX", .zeroPageY, 2, 4, false, false, .read⟩,
   ⟨"UNDEF", .implied, 1, 2, false, false, .undefined⟩,
   ⟨"CLV", .implied, 1, 2, false, false, .implied⟩,
   ⟨"LDA", .absoluteY, 3, 4, true, true, .read⟩,
   ⟨"TSX", .implied, 1, 2, false, false, .implied⟩,
   ⟨"UNDEF", .implied, 1, 2, false, false, .undefined⟩,
   ⟨"LDY", .absoluteX, 3, 4, true, true, .read⟩,
   ⟨"LDA", .absoluteX, 3, 4, true, true, .read⟩,
   ⟨"LDX", .absoluteY, 3, 4, true, true, .read⟩,
   ⟨"UNDEF", .implied, 1, 2, false, false, .undefined⟩]

/-- Rows 0xC0 to 0xCF. -/
def tableRowsC : List Row :=
  [
   ⟨"CPY", .immediate, 2, 2, false, false, .read⟩,
   ⟨"CMP", .indexedIndirect, 2, 6, false, false, .read⟩,
   ⟨"UNDEF", .implied, 1, 2, false, false, .undefined⟩,
   ⟨"UNDEF", .implied, 1, 2, false, false, .undefined⟩,
   ⟨"CPY", .zeroPage, 2, 3, false, false, .read⟩,
   ⟨"CMP", .zeroPage, 2, 3, false, false, .read⟩,
   ⟨"DEC", .zeroPage, 2, 5, false, false, .rmw⟩,
   ⟨"UNDEF", .implied, 1, 2, false, false, .undefined⟩,
   ⟨"INY", .implied, 1, 2, false, false, .implied⟩,
   ⟨"CMP", .immediate, 2, 2, false, false, .read⟩,
   ⟨"DEX", .implied, 1, 2, false, false, .implied⟩,
   ⟨"UNDEF", .implied, 1, 2, false, false, .undefined⟩,
   ⟨"CPY", .absolute, 3, 4, false, false, .read⟩,
   ⟨"CMP", .absolute, 3, 4, false, false, .read⟩,
   ⟨"DEC", .absolute, 3, 6, false, false, .rmw⟩,
   ⟨"UNDEF", .implied, 1, 2, false, false, .undefined⟩]

/-- Rows 0xD0 to 0xDF. -/
def tableRowsD : List Row :=
  [
   ⟨"BNE", .relative, 2, 2, false, false, .branch⟩,
   ⟨"CMP", .indirectIndexed, 2, 5, true, true, .read⟩,
   ⟨"UNDEF", .implied, 1, 2, false, false, .undefined⟩,
   ⟨"UNDEF", .implied, 1, 2, false, false, .undefined⟩,
   ⟨"UNDEF", .implied, 1, 2, false, false, .undefined⟩,
   ⟨"CMP", .zeroPageX, 2, 4, false, false, .read⟩,
   ⟨"DEC", .zeroPageX, 2, 6, false, false, .rmw⟩,
   ⟨"UNDEF", .implied, 1, 2, false, false, .undefined⟩,
   ⟨"CLD", .implied, 1, 2, false, false, .implied⟩,
   ⟨"CMP", .absoluteY, 3, 4, true, true, .read⟩,
   ⟨"UNDEF", .implied, 1, 2, false, false, .undefined⟩,
   ⟨"UNDEF", .implied, 1, 2, false, false, .undefined⟩,
   ⟨"UNDEF", .implied, 1, 2, false, false, .undefined⟩,
   ⟨"CMP", .absoluteX, 3, 4, true, true, .read⟩,
   ⟨"DEC", .absoluteX, 3, 7, false, true, .rmw⟩,
   ⟨"UNDEF", .implied, 1, 2, false, false, .undefined⟩]

/-- Rows 0xE0 to 0xEF. -/
def tableRowsE : List Row :=
  [
   ⟨"CPX", .immediate, 2, 2, false, false, .read⟩,
   ⟨"SBC", .indexedIndirect, 2, 6, false, false, .read⟩,
   ⟨"UNDEF", .implied, 1, 2, false, false, .undefined⟩,
   ⟨"UNDEF", .implied, 1, 2, false, false, .undefined⟩,
   ⟨"CPX", .zeroPage, 2, 3, false, false, .read⟩,
   ⟨"SBC", .zeroPage, 2, 3, false, false, .read⟩,
   ⟨"INC", .zeroPage, 2, 5, false, false, .rmw⟩,
   ⟨"UNDEF", .implied, 1, 2, false, false, .undefined⟩,
   ⟨"INX", .implied, 1, 2, false, false, .implied⟩,
   ⟨"SBC", .immediate, 2, 2, false, false, .read⟩,
   ⟨"NOP", .implied, 1, 2, false, false, .implied⟩,
   ⟨"UNDEF", .implied, 1, 2, false, false, .undefined⟩,
   ⟨"CPX", .absolute, 3, 4, false, false, .read⟩,
   ⟨"SBC", .absolute, 3, 4, false, false, .read⟩,
   ⟨"INC", .absolute, 3, 6, false, false, .rmw⟩,
   ⟨"UNDEF", .implied, 1, 2, false, false, .undefined⟩]

/-- Rows 0xF0 to 0xFF. -/
def tableRowsF : List Row :=
  [
   ⟨"BEQ", .relative, 2, 2, false, false, .branch⟩,
   ⟨"SBC", .indirectIndexed, 2, 5, true, true, .read⟩,
   ⟨"UNDEF", .implied, 1, 2, false, false, .undefined⟩,
   ⟨"UNDEF", .implied, 1, 2, false, false, .undefined⟩,
   ⟨"UNDEF", .implied, 1, 2, false, false, .undefined⟩,
   ⟨"SBC", .zeroPageX, 2, 4, false, false, .read⟩,
   ⟨"INC", .zeroPageX, 2, 6, false, false, .rmw⟩,
   ⟨"UNDEF", .implied, 1, 2, false, false, .undefined⟩,
   ⟨"SED", .implied, 1, 2, false, false, .implied⟩,
   ⟨"SBC", .absoluteY, 3, 4, true, true, .read⟩,
   ⟨"UNDEF", .implied, 1, 2, false, false, .undefined⟩,
   ⟨"UNDEF", .implied, 1, 2, false, false, .undefined⟩,
   ⟨"UNDEF", .implied, 1, 2, false, false, .undefined⟩,
   ⟨"SBC", .absoluteX, 3, 4, true, true, .read⟩,
   ⟨"INC", .absoluteX, 3, 7, false, true, .rmw⟩,
   ⟨"UNDEF", .implied, 1, 2, false, false, .undefined⟩]

/-- The 256 rows in byte order. -/
def opcodeTable : List Row :=
  tableRows0 ++ tableRows1 ++ tableRows2 ++ tableRows3 ++ tableRows4 ++ tableRows5 ++ tableRows6 ++
  tableRows7 ++ tableRows8 ++ tableRows9 ++ tableRowsA ++ tableRowsB ++ tableRowsC ++ tableRowsD ++
  tableRowsE ++ tableRowsF

/-- The row of an opcode byte (R87). -/
def rowOf (op : Byte) : Row :=
  opcodeTable.getD op.toNat ⟨"UNDEF", .implied, 1, 2, false, false, .undefined⟩

/-! ### An instruction in the table's terms -/

/-- The mnemonic of an instruction (R84; `UNDEF` as in R90). -/
def Instr.mnemonic : Instr → String
  | .lda _ => "LDA"
  | .ldx _ => "LDX"
  | .ldy _ => "LDY"
  | .sta _ => "STA"
  | .stx _ => "STX"
  | .sty _ => "STY"
  | .tax => "TAX"
  | .tay => "TAY"
  | .txa => "TXA"
  | .tya => "TYA"
  | .tsx => "TSX"
  | .txs => "TXS"
  | .adc _ => "ADC"
  | .sbc _ => "SBC"
  | .and _ => "AND"
  | .ora _ => "ORA"
  | .eor _ => "EOR"
  | .bit _ => "BIT"
  | .cmp _ => "CMP"
  | .cpx _ => "CPX"
  | .cpy _ => "CPY"
  | .inc _ => "INC"
  | .dec _ => "DEC"
  | .inx => "INX"
  | .iny => "INY"
  | .dex => "DEX"
  | .dey => "DEY"
  | .asl _ => "ASL"
  | .lsr _ => "LSR"
  | .rol _ => "ROL"
  | .ror _ => "ROR"
  | .bpl _ => "BPL"
  | .bmi _ => "BMI"
  | .bvc _ => "BVC"
  | .bvs _ => "BVS"
  | .bcc _ => "BCC"
  | .bcs _ => "BCS"
  | .bne _ => "BNE"
  | .beq _ => "BEQ"
  | .jmpAbs _ => "JMP"
  | .jmpInd _ => "JMP"
  | .jsr _ => "JSR"
  | .rts => "RTS"
  | .pha => "PHA"
  | .php => "PHP"
  | .pla => "PLA"
  | .plp => "PLP"
  | .clc => "CLC"
  | .sec => "SEC"
  | .cli => "CLI"
  | .sei => "SEI"
  | .cld => "CLD"
  | .sed => "SED"
  | .clv => "CLV"
  | .brk _ => "BRK"
  | .rti => "RTI"
  | .nop => "NOP"
  | .undef _ => "UNDEF"

/-- The addressing mode of a memory form. -/
def MemMode.mode : MemMode → Mode
  | .zp _ => .zeroPage
  | .zpX _ => .zeroPageX
  | .zpY _ => .zeroPageY
  | .abs _ => .absolute
  | .absX _ => .absoluteX
  | .absY _ => .absoluteY
  | .indX _ => .indexedIndirect
  | .indY _ => .indirectIndexed

/-- The addressing mode of a read-class form. -/
def ReadMode.mode : ReadMode → Mode
  | .imm _ => .immediate
  | .mem m => m.mode

/-- The addressing mode of a shift form. -/
def ShiftMode.mode : ShiftMode → Mode
  | .acc => .accumulator
  | .mem m => m.mode

/-- The addressing mode of an instruction, in the table's terms. -/
def Instr.mode : Instr → Mode
  | .lda o | .ldx o | .ldy o | .adc o | .sbc o | .and o | .ora o | .eor o => o.mode
  | .cmp o | .cpx o | .cpy o => o.mode
  | .sta m | .stx m | .sty m | .bit m | .inc m | .dec m => m.mode
  | .asl o | .lsr o | .rol o | .ror o => o.mode
  | .bpl _ | .bmi _ | .bvc _ | .bvs _ | .bcc _ | .bcs _ | .bne _ | .beq _ => .relative
  | .jmpAbs _ | .jsr _ => .absolute
  | .jmpInd _ => .indirect
  | .tax | .tay | .txa | .tya | .tsx | .txs | .inx | .iny | .dex | .dey => .implied
  | .rts | .pha | .php | .pla | .plp | .rti | .nop => .implied
  | .clc | .sec | .cli | .sei | .cld | .sed | .clv => .implied
  | .brk _ | .undef _ => .implied

end Sys2Proof
end

