-- ==== Sys2Proof/Machine/Assembly.lean ====
section
/-!
DEFINITION. The assembler syntax of rule R88 (spec/30_encoding.md): how an instruction is written,
and the offset byte an assembler gives a branch. No tick reads it.
-/

namespace Sys2Proof.Machine

/-- One hexadecimal digit. -/
def hexDigit (n : Nat) : String :=
  ["0", "1", "2", "3", "4", "5", "6", "7", "8", "9", "A", "B", "C", "D", "E", "F"].getD n "0"

/-- `$nn` (R88). -/
def hexByte (b : Byte) : String := "$" ++ hexDigit (b.toNat / 16) ++ hexDigit (b.toNat % 16)

/-- `$nnnn` (R88). -/
def hexWord (w : Word) : String :=
  "$" ++ hexDigit ((hi w).toNat / 16) ++ hexDigit ((hi w).toNat % 16) ++
    hexDigit ((lo w).toNat / 16) ++ hexDigit ((lo w).toNat % 16)

/-- A memory mode's operand (R88). -/
def asmMem : MemMode → String
  | .zp a => " " ++ hexByte a
  | .zpX a => " " ++ hexByte a ++ ",X"
  | .zpY a => " " ++ hexByte a ++ ",Y"
  | .abs w => " " ++ hexWord w
  | .absX w => " " ++ hexWord w ++ ",X"
  | .absY w => " " ++ hexWord w ++ ",Y"
  | .indX a => " (" ++ hexByte a ++ ",X)"
  | .indY a => " (" ++ hexByte a ++ "),Y"

/-- A read-class form's operand (R88). -/
def asmRead : ReadMode → String
  | .imm v => " #" ++ hexByte v
  | .mem m => asmMem m

/-- A shift form's operand (R88). -/
def asmShift : ShiftMode → String
  | .acc => " A"
  | .mem m => asmMem m

/-- The operand text of an instruction at address `pc`; a branch shows its target (R88). -/
def asmOperand (pc : Word) : Instr → String
  | .lda o | .ldx o | .ldy o | .adc o | .sbc o | .and o | .ora o | .eor o => asmRead o
  | .cmp o | .cpx o | .cpy o => asmRead o
  | .sta m | .stx m | .sty m | .bit m | .inc m | .dec m => asmMem m
  | .asl o | .lsr o | .rol o | .ror o => asmShift o
  | .bpl d | .bmi d | .bvc d | .bvs d | .bcc d | .bcs d | .bne d | .beq d =>
    " " ++ hexWord (pc + 2 + sext16 d)
  | .jmpAbs w | .jsr w => " " ++ hexWord w
  | .jmpInd w => " (" ++ hexWord w ++ ")"
  | .tax | .tay | .txa | .tya | .tsx | .txs | .inx | .iny | .dex | .dey => ""
  | .rts | .pha | .php | .pla | .plp | .rti | .nop => ""
  | .clc | .sec | .cli | .sei | .cld | .sed | .clv => ""
  | .brk _ | .undef _ => ""

/-- An instruction at address `pc` in R88's syntax; none for an undefined byte, which has no
mnemonic and is written as raw data (R89). -/
def asm (pc : Word) (i : Instr) : Option String :=
  match i with
  | .undef _ => none
  | j => some (j.mnemonic ++ asmOperand pc j)

/-- The offset byte of a branch at `pc` to `target`: `target - (pc + 2)` truncated to 8 bits; a
target outside -128 to +127 of that base is refused (R88). -/
def branchOffset (pc target : Word) : Option Byte :=
  let d := target - (pc + 2)
  if -128 ≤ d.toInt ∧ d.toInt ≤ 127 then some (lo d) else none

end Sys2Proof.Machine
end

