-- ==== Sys2Proof/Machine/Construct.lean ====
section
/-!
DEFINITION. Construction of the core by the host (R271, R280): the power-on state from the
cartridge, the RAM and PPU buffers and the parameters, refused for a cartridge that is not
well-formed (U7; decision D18).
-/

namespace Sys2Proof.Machine

/-- The PPU register cells: indices 0 to 7 of the driver's 0x100-byte buffer (R36; decision D26). -/
def ppuFromBuffer (b : Vector Byte 256) : PpuRegs :=
  { ctrl := b[0], mask := b[1], status := b[2], oamAddr := b[3]
    oamData := b[4], scroll := b[5], addr := b[6], data := b[7] }

/-- The power-on state of R39 for the given parameters: SP = 0xFF, I = B = 1, `reset_requested`
set, and the rest from `POWER_ON_REGS`, `RAM0`, `PPUREG0` and `PRG` (R10, R280; decision D6). The count 0
and the empty trace before any tick are the model's own: DESIGN CHOICE, log entry 5. -/
def powerOn (c : Construction) : State :=
  { a := c.powerOn.a, x := c.powerOn.x, y := c.powerOn.y, sp := 0xFF, pc := 0x0000
    p := Flags.powerOn c.powerOn
    resetReq := true, nmiReq := false, irqReq := false
    ram := Memory.ofBytes c.ram0.toList 0, ppu := ppuFromBuffer c.ppuBuffer
    prg := Memory.ofBytes c.prg 0, params := c.params
    cycles := 0, trace := [] }

/-- A well-formed cartridge: at least one bank, and exactly `PRG_BANKS × 16384` bytes (R10, D18). -/
def Construction.cartridgeOk (c : Construction) : Bool :=
  decide (1 ≤ c.params.prgBanks) && decide (c.prg.length = c.params.prgBanks * bankSize)

/-- Construct the core, or refuse the cartridge before any run (R271, U7). -/
def construct (c : Construction) : Host.Outcome State Fault Refusal :=
  if Construction.cartridgeOk c then .next (powerOn c) else .refused .badCartridge

end Sys2Proof.Machine
end

