-- ==== Sys2Proof/Machine/Environment.lean ====
section
/-!
DEFINITION. The other agents of the system (R66): what the host, the driver and the PPU may do to
the core between two ticks (R70, R252 to R254, R271), and an execution as an interleaving of whole
ticks with their steps (R66, R68).
-/

namespace Sys2Proof.Machine

/-- One atomic environment step (R66, R70, R271). -/
inductive EnvAction where
  /-- `request_irq()` (R252) -/
  | requestIrq
  /-- `request_nmi()` (R253) -/
  | requestNmi
  /-- the host's reset request (R254; decision D17) -/
  | requestReset
  /-- the PPU agent writes one PPU register cell (R70) -/
  | ppuWrite (k : Fin 8) (v : Byte)
  /-- the environment writes one RAM cell: a move that exists only under `ENV_WRITES_RAM` (R70; D16) -/
  | ramWrite (k : Fin 2048) (v : Byte)
  deriving DecidableEq, Repr

/-- The state after an environment step; none where the move does not exist (R271). -/
def envStep (e : EnvAction) (s : State) : Option State :=
  match e with
  | .requestIrq => some { s with irqReq := true }
  | .requestNmi => some { s with nmiReq := true }
  | .requestReset => some { s with resetReq := true }
  | .ppuWrite k v => some { s with ppu := s.ppu.set k.val v }
  | .ramWrite k v => if s.params.envWritesRam then some { s with ram := s.ram.write k.val v } else none

/-- One event of an execution: a tick of the core, or an environment step (R66). -/
inductive Event where
  | tick
  | env (e : EnvAction)
  deriving DecidableEq, Repr

/-- The state an outcome goes on in, if it does. -/
def nextState (o : Host.Outcome State Fault Refusal) : Option State :=
  match o with
  | .next t => some t
  | .fault _ => none
  | .refused _ => none

/-- The state after one event. -/
def sysStep (e : Event) (s : State) : Option State :=
  match e with
  | .tick => nextState (step s)
  | .env a => envStep a s

/-- The state after an interleaving, in its one global order (R68). -/
def sysRun : List Event → State → Option State
  | [], s => some s
  | e :: es, s => (sysStep e s).bind (sysRun es)

/-- Whether a run may end here at `E`: `PC == E` with no latch set (R272; decision D30). -/
def atEnd (e : Word) (s : State) : Bool :=
  s.pc == e && !s.resetReq && !s.nmiReq && !s.irqReq

/-- The end of a run at `E` (R272): the state at the FIRST tick boundary of the interleaving, the
start included (log entry 9, DEDUCED), that `atEnd` accepts, with the events after it; none where
the interleaving does not reach one. An environment step moves no PC and clears no latch, so the first such state is one
right after a tick, or the start. The other end R272 names, `n` ticks, is `core.run n`. -/
def runToEnd (e : Word) : List Event → State → Option (State × List Event)
  | [], s => if atEnd e s then some (s, []) else none
  | v :: es, s => if atEnd e s then some (s, v :: es) else (sysStep v s).bind (runToEnd e es)

end Sys2Proof.Machine
end

