-- ==== Sys2Proof/Safety.lean ====
section
/-!
DEFINITION. What counts as a safe run, and the invariant of the machine, in the terms the
statements use.
-/

namespace Sys2Proof.Machine

/-- The form every state of a constructed core has: RAM and PRG in canonical form and inside their
stores (R36), and at least one PRG bank (R59; decision D18). -/
abbrev State.Inv (s : State) : Prop :=
  Memory.wf s.ram ∧ Memory.below s.ram ramSize ∧
  Memory.wf s.prg ∧ Memory.below s.prg (s.params.prgBanks * bankSize) ∧
  1 ≤ s.params.prgBanks

/-- A tick that completes: it answers a next state, no fault and no refusal (R101, R14). -/
def Completes (s : State) : Prop := ∃ t, step s = .next t

/-- A run of `n` ticks that never stops (R14, R235). -/
def SafeFor (n : Nat) (s : State) : Prop := ∃ t, Sys2Proof.core.run n s = .next t

/-- Two addresses name the same writable cell: one RAM cell or one PPU register cell, through any
of its mirrors (R53, R54). The stub windows and PRG hold no writable cell (R52). -/
def sameCell (a b : Word) : Bool :=
  match regionOf a, regionOf b with
  | .ram, .ram => ramIndex a == ramIndex b
  | .ppu, .ppu => ppuIndex a == ppuIndex b
  | .ram, _ | .ppu, _ | .apuIo, _ | .expansion, _ | .cartRam, _ | .prg, _ => false

/-! ### What a form reads, for the statements -/

/-- A list of reads as they stand in the trace (R72). -/
def readsOf (as : List Word) (s : State) : List Access := as.map fun a => .read a (s.peek a)

/-- The reads of a memory mode that is read: its pointer, then its operand (R119). -/
def memReads (m : MemMode) (s : State) : List Access :=
  readsOf (pointerReads m s) s ++ [.read (ea m s) (s.peek (ea m s))]

/-- The operand `M` of a read-class form (R108, R119). -/
def operandValue (o : ReadMode) (s : State) : Byte :=
  match o with
  | .imm v => v
  | .mem m => s.peek (ea m s)

/-- The reads of a read-class form (R108, R119). -/
def operandReads (o : ReadMode) (s : State) : List Access :=
  match o with
  | .imm _ => []
  | .mem m => memReads m s

end Sys2Proof.Machine
end

