-- ==== Sys2Proof/Certificates/Slice0/Obligations.lean ====
section
/-!
DEFINITION. The statements about the machine, each from the rules of spec/ its docstring names.

A statement of an instruction's result is an equation `exec i s = .next t` (or says there is such a
`t` and what it holds), so it also says that the instruction completes, from every state and with
every operand. Written `t = (s with these fields)`, the equation is the frame as well: every field
that is not named, memory, flags, latches and parameters among them, is that of `s`.
-/

open Sys2Proof Sys2Proof.Machine

namespace Sys2Proof.Statement

/-! ### The notions of the rules, in plain arithmetic -/

/-- The word of two bytes, `{h, l}` (R11). -/
def wordOf (h l : Byte) : Word := BitVec.ofNat 16 (256 * h.toNat + l.toNat)

/-- `hi(w)` (R11). -/
def highByte (w : Word) : Byte := BitVec.ofNat 8 (w.toNat / 256)

/-- `lo(w)` (R11). -/
def lowByte (w : Word) : Byte := BitVec.ofNat 8 (w.toNat % 256)

/-- The page of an address (R16). -/
def page (w : Word) : Nat := w.toNat / 256

/-- The stack cell of SP: 0x0100 + SP (R23). -/
def stackCell (sp : Byte) : Word := BitVec.ofNat 16 (0x100 + sp.toNat)

/-- `SetZN(r)` (R126). -/
def withZN (f : Flags) (r : Byte) : Flags := { f with z := decide (r.toNat = 0), n := r.msb }

/-- The packed status with the given bit 4, in the order `N V 1 B D I Z C` (R33, R34). -/
def statusByte (f : Flags) (b : Bool) : Byte :=
  BitVec.ofNat 8 (128 * f.n.toNat + 64 * f.v.toNat + 32 + 16 * b.toNat + 8 * f.d.toNat +
    4 * f.i.toNat + 2 * f.z.toNat + f.c.toNat)

/-- The flags of a popped status byte (R223, R232). -/
def flagsOf (p : Byte) : Flags :=
  { n := p.getLsbD 7, v := p.getLsbD 6, b := p.getLsbD 4, d := p.getLsbD 3, i := p.getLsbD 2
    z := p.getLsbD 1, c := p.getLsbD 0 }

/-- Two addresses name one writable cell: a RAM cell (R53) or a PPU register cell (R54). -/
abbrev SameCell (a b : Word) : Prop :=
  (a.toNat < 0x2000 ∧ b.toNat < 0x2000 ∧ a.toNat % 0x800 = b.toNat % 0x800) ∨
  (0x2000 ≤ a.toNat ∧ a.toNat < 0x4000 ∧ 0x2000 ≤ b.toNat ∧ b.toNat < 0x4000 ∧
    a.toNat % 8 = b.toNat % 8)

/-- `t` reads as `s` but for the cell `a` names, where it reads `v`; nothing is stored where `a`
names no writable cell (R52). -/
def StoresByte (s t : State) (a : Word) (v : Byte) : Prop :=
  ∀ b : Word, (SameCell a b → t.peek b = v) ∧ (¬ SameCell a b → t.peek b = s.peek b)

/-- `t` is `s` after pushing the bytes of `bs` in order: SP has fallen by their number, each stands
in its stack cell, and every other address reads as before (R63). -/
def AfterPushes (s t : State) (bs : List Byte) : Prop :=
  t.sp = s.sp - BitVec.ofNat 8 bs.length ∧
  (∀ k, k < bs.length → t.peek (stackCell (s.sp - BitVec.ofNat 8 k)) = bs.getD k 0) ∧
  ∀ b : Word, (∀ k, k < bs.length → ¬ SameCell (stackCell (s.sp - BitVec.ofNat 8 k)) b) →
    t.peek b = s.peek b

/-- The writes of those pushes, as they stand in the trace. -/
def pushWrites (sp : Byte) (bs : List Byte) : List Access :=
  (List.range bs.length).map fun k => .write (stackCell (sp - BitVec.ofNat 8 k)) (bs.getD k 0)

/-- The read of a byte, as it stands in the trace. -/
def readAt (s : State) (a : Word) : Access := .read a (s.peek a)

/-- The little-endian word at an address (R61). -/
def wordAt (s : State) (a : Word) : Word := wordOf (s.peek (a + 1)) (s.peek a)

/-- The byte the first pop takes, and the second, and the third (R64). -/
def popped (s : State) (k : Nat) : Byte := s.peek (stackCell (s.sp + BitVec.ofNat 8 k))

/-- The read of the `k`-th pop. -/
def popRead (s : State) (k : Nat) : Access := readAt s (stackCell (s.sp + BitVec.ofNat 8 k))

/-- `s` enters a handler and becomes `t`: `ret` (high, then low) and the status with bit 4 = `b` are
pushed, I is set, PC is the word at `vector`; A, X, Y, the other flags, the latches, PRG and the
parameters are unchanged, and every byte but the three pushed ones reads as before (R231, R258). -/
def EntersHandler (vector ret : Word) (b : Bool) (s t : State) : Prop :=
  AfterPushes s t [highByte ret, lowByte ret, statusByte s.p b] ∧
  t = { s with ram := t.ram, sp := t.sp, p := { s.p with i := true }
               pc := wordAt s vector, cycles := t.cycles, trace := t.trace }

/-- The accesses of that entry: three writes to the stack page, then two reads of the vector. -/
def entryAccesses (vector ret : Word) (b : Bool) (s : State) : List Access :=
  pushWrites s.sp [highByte ret, lowByte ret, statusByte s.p b] ++
    [readAt s vector, readAt s (vector + 1)]

/-- The encodings of an accumulator-group instruction, one opcode byte per mode (R84). -/
def AccEncodings (f : ReadMode → Instr) (imm zp zpx abs absx absy indx indy : Byte) : Prop :=
  ∀ l h : Byte,
    decode imm l h = f (.imm l) ∧ decode zp l h = f (.mem (.zp l)) ∧
    decode zpx l h = f (.mem (.zpX l)) ∧ decode abs l h = f (.mem (.abs (wordOf h l))) ∧
    decode absx l h = f (.mem (.absX (wordOf h l))) ∧
    decode absy l h = f (.mem (.absY (wordOf h l))) ∧
    decode indx l h = f (.mem (.indX l)) ∧ decode indy l h = f (.mem (.indY l))

/-- The encodings of a read-modify-write instruction on memory (R84). -/
def RmwEncodings (f : MemMode → Instr) (zp zpx abs absx : Byte) : Prop :=
  ∀ l h : Byte,
    decode zp l h = f (.zp l) ∧ decode zpx l h = f (.zpX l) ∧
    decode abs l h = f (.abs (wordOf h l)) ∧ decode absx l h = f (.absX (wordOf h l))

/-- A one-byte instruction of one opcode byte. -/
def OneByte (op : Byte) (i : Instr) : Prop := ∀ l h : Byte, decode op l h = i

/-- `s` after a form of `n` bytes that transfers no control, costs `c` and makes the accesses `as`. -/
def advanced (s : State) (n : Nat) (c : Cycles) (as : List Access) : State :=
  { s with pc := s.pc + BitVec.ofNat 16 n, cycles := c, trace := s.trace ++ as }

/-- A read-class form after which only the flags are written: a compare, BIT. -/
def ReadsIntoFlags (i : Instr) (o : ReadMode) (f : State → Flags) : Prop :=
  ∀ s : State, exec i s = .next { advanced s o.size (readCost o s) (operandReads o s) with p := f s }

/-- A store of `v` by a form in mode `m`: one write at EA, no flag (R119, R143). -/
def StoreResult (i : Instr) (m : MemMode) (v : State → Byte) : Prop :=
  ∀ s : State, s.Inv → ∃ t : State, exec i s = .next t ∧
    t = { advanced s m.size (writeCost m s)
            (readsOf (pointerReads m s) s ++ [.write (ea m s) (v s)]) with
          ram := t.ram, ppu := t.ppu } ∧
    StoresByte s t (ea m s) (v s)

/-- A read-modify-write form in mode `m`: one read, one write of `r`, the flags `f` (R119). -/
def RmwResult (i : Instr) (m : MemMode) (r : State → Byte → Byte) (f : State → Byte → Flags) : Prop :=
  ∀ s : State, s.Inv → ∃ t : State, exec i s = .next t ∧
    t = { advanced s m.size (rmwCost m s)
            (memReads m s ++ [.write (ea m s) (r s (s.peek (ea m s)))]) with
          ram := t.ram, ppu := t.ppu, p := f s (s.peek (ea m s)) } ∧
    StoresByte s t (ea m s) (r s (s.peek (ea m s)))

/-- The accumulator form of a shift (R190). -/
def AccShiftResult (i : Instr) (r : State → Byte → Byte) (f : State → Byte → Flags) : Prop :=
  ∀ s : State, exec i s = .next { advanced s 1 2 [] with a := r s s.a, p := f s s.a }

/-- C from the bit shifted out, Z and N from the result (R190). -/
def shiftFlags (s : State) (out : Bool) (r : Byte) : Flags := withZN { s.p with c := out } r

/-- A compare's flags (R167 to R169). -/
def compareFlags (f : Flags) (r m : Byte) : Flags :=
  { f with c := decide (m.toNat ≤ r.toNat), z := decide (r = m)
           n := (BitVec.ofNat 8 (256 + r.toNat - m.toNat)).msb }

/-- The branch of opcode byte `op` is taken exactly when `cond` holds of the flags (R200): PC is
`next` plus the signed offset, or `next`; it costs 2, 3 taken, 4 taken to another page (R122). -/
def BranchResult (f : Byte → Instr) (op : Byte) (cond : Flags → Bool) : Prop :=
  (∀ l h : Byte, decode op l h = f l) ∧
  ∀ (off : Byte) (s : State),
    let target := BitVec.ofInt 16 ((s.pc.toNat : Int) + 2 + off.toInt)
    exec (f off) s = .next { s with
      pc := if cond s.p then target else s.pc + 2
      cycles := if cond s.p then (if page target = page (s.pc + 2) then 3 else 4) else 2 }

/-- A flag instruction: one byte, 2 cycles, the flags `g` (R224 to R230). -/
def FlagResult (i : Instr) (op : Byte) (g : Flags → Flags) : Prop :=
  OneByte op i ∧ ∀ s : State, exec i s = .next { advanced s 1 2 [] with p := g s.p }

/-- The memory mode an instruction uses, where it has one. -/
def memModeOf : Instr → Option MemMode
  | .lda o | .ldx o | .ldy o | .adc o | .sbc o | .and o | .ora o | .eor o | .cmp o | .cpx o | .cpy o =>
    match o with
    | .imm _ => none
    | .mem m => some m
  | .asl o | .lsr o | .rol o | .ror o =>
    match o with
    | .acc => none
    | .mem m => some m
  | .sta m | .stx m | .sty m | .bit m | .inc m | .dec m => some m
  | .bpl _ | .bmi _ | .bvc _ | .bvs _ | .bcc _ | .bcs _ | .bne _ | .beq _ => none
  | .jmpAbs _ | .jmpInd _ | .jsr _ | .rts | .brk _ | .rti | .nop | .undef _ => none
  | .tax | .tay | .txa | .tya | .tsx | .txs | .inx | .iny | .dex | .dey => none
  | .pha | .php | .pla | .plp | .clc | .sec | .cli | .sei | .cld | .sed | .clv => none

/-- `crossed` of an instruction: false for one with no memory mode (R108, R115). -/
def crossedBy (i : Instr) (s : State) : Bool :=
  match memModeOf i with
  | some m => crosses m s
  | none => false

/-- Whether a branch is taken, and its offset; none for any other instruction (R201 to R208). -/
def branchOf (f : Flags) : Instr → Option (Bool × Byte)
  | .bpl d => some (!f.n, d)
  | .bmi d => some (f.n, d)
  | .bvc d => some (!f.v, d)
  | .bvs d => some (f.v, d)
  | .bcc d => some (!f.c, d)
  | .bcs d => some (f.c, d)
  | .bne d => some (!f.z, d)
  | .beq d => some (f.z, d)
  | _ => none

/-- `BranchExtra` (R122). -/
def branchExtraOf (i : Instr) (s : State) : Cycles :=
  match branchOf s.p i with
  | none => 0
  | some (taken, off) =>
    if taken = false then 0
    else if page (s.pc + 2 + off.signExtend 16) = page (s.pc + 2) then 1 else 2

/-- Whether a row pays the page-cross cycle under the run's `PAGE_PENALTY_SCOPE` (R121). -/
def paysPage (r : Row) (scope : PenaltyScope) : Bool :=
  match scope with
  | .readsOnly => r.pagePenalty
  | .allIndexed => r.pagePenaltyIfAll

/-- `s'` is `s` but for the stored B and the outputs of the last tick. -/
def SameButBreakAndOutputs (s s' : State) : Prop :=
  s' = { s with p := { s.p with b := s'.p.b }, cycles := s'.cycles, trace := s'.trace }

/-- `s'` is `s` but for D. -/
def SameButDecimal (s s' : State) : Prop := s' = { s with p := { s.p with d := s'.p.d } }

/-- An access with bit 3 (D) of a byte written at `cell` cleared. -/
def forgetPushedD (cell : Word) : Access → Access
  | .read a v => .read a v
  | .write a v => .write a (if a = cell then v &&& 0xF7 else v)

/-- `t'` is `t` but for D and for bit 3 of the status byte pushed to `cell`, in memory and in the
trace. -/
def SameButPushedDecimal (cell : Word) (t t' : State) : Prop :=
  t' = { t with ram := t'.ram, p := { t.p with d := t'.p.d }, trace := t'.trace } ∧
  t'.trace.map (forgetPushedD cell) = t.trace.map (forgetPushedD cell) ∧
  ∀ b : Word, (SameCell cell b → t'.peek b &&& 0xF7 = t.peek b &&& 0xF7) ∧
    (¬ SameCell cell b → t'.peek b = t.peek b)

/-- No request is serviced: the tick executes an instruction (R100). -/
abbrev NoRequest (s : State) : Prop :=
  s.resetReq = false ∧ s.nmiReq = false ∧ (s.irqReq = false ∨ s.p.i = true)

/-- The state a handler starts from after a tick's fetch: PC is the opcode's address, and the three
fetch reads stand first in the trace (R103, R104). -/
def fetchedState (s : State) : State :=
  { s with cycles := 0, trace := [readAt s s.pc, readAt s (s.pc + 1), readAt s (s.pc + 2)] }

/-- An event the environment can make in a run with these parameters (R70, R271). -/
def allowed (p : Params) : Event → Bool
  | .tick => true
  | .env (.ramWrite _ _) => p.envWritesRam
  | .env .requestIrq | .env .requestNmi | .env .requestReset | .env (.ppuWrite _ _) => true

end Sys2Proof.Statement

open Sys2Proof.Statement

/-! ## Encoding -/

/-- Opcode words written out bit by bit from the encodings of R84 and the table, one per family,
decode to the instruction they stand for. -/
def Obligations.DecodesWordsWrittenOut : Prop :=
  decode 0b10101001 0b00110111 0 = .lda (.imm 0x37) ∧
  decode 0b10011101 0b11110000 0b00000010 = .sta (.absX 0x02F0) ∧
  decode 0b01110001 0b01000000 0 = .adc (.mem (.indY 0x40)) ∧
  decode 0b00101100 0b00000010 0b00100000 = .bit (.abs 0x2002) ∧
  decode 0b01101010 0 0 = .ror .acc ∧
  decode 0b11010000 0b11111010 0 = .bne 0xFA ∧
  decode 0b01101100 0b11111111 0b00000010 = .jmpInd 0x02FF ∧
  decode 0b00000000 0b11101110 0 = .brk 0xEE ∧
  decode 0b01011000 0 0 = .cli ∧
  decode 0b00000010 0b00010001 0b00100010 = .undef 0x02

/-- Decode and encode agree: a well-formed instruction, with every operand at every value, is read
back from its bytes whatever stands after them. No bit of an encoding is dropped (R80 to R87). -/
def Obligations.DecodingAnEncodingGivesItBack : Prop :=
  ∀ (i : Instr) (rest : List Byte), i.wellFormed = true →
    decodeBytes (encode i ++ rest) = .ok (i, rest)

/-- The other direction: every fetch of three bytes decodes to a well-formed instruction, whose
encoding is the first bytes of the fetch, as many as R81 gives the opcode byte (R85, R87). -/
def Obligations.EncodingADecodedFetchGivesItsBytes : Prop :=
  ∀ op l h : Byte, (decode op l h).wellFormed = true ∧
    encode (decode op l h) = [op, l, h].take (decode op l h).size

/-- Decoder and table agree on every opcode byte, whatever the operand bytes: mnemonic, addressing
mode, length, and which bytes are the 105 undefined ones (R81, R83 to R85, R87, R90). -/
def Obligations.DecoderAgreesWithOpcodeTable : Prop :=
  ∀ op l h : Byte,
    (decode op l h).mnemonic = (rowOf op).mnemonic ∧ (decode op l h).mode = (rowOf op).mode ∧
    (decode op l h).size = (rowOf op).length ∧ (decode op l h).opcode = some op ∧
    ((rowOf op).defined = false ↔ op ∈ undefinedBytes) ∧ undefinedBytes.length = 105

/-- The count of every instruction of the table is its row's base cost, one more when the row pays
the page-cross cycle and the page is crossed, and `BranchExtra` for a branch (R120, R121, R122). -/
def Obligations.CycleCountFollowsTheTable : Prop :=
  ∀ (i : Instr) (op : Byte) (s t : State), i.opcode = some op → exec i s = .next t →
    t.cycles = (rowOf op).baseCycles +
      (if paysPage (rowOf op) s.params.pagePenaltyScope && crossedBy i s then 1 else 0) +
      branchExtraOf i s

/-- R88: the offset byte an assembler gives a branch takes the branch to its target, and a target
is refused exactly when no offset reaches it. -/
def Obligations.AssembledBranchReachesItsTarget : Prop :=
  ∀ pc target : Word,
    (∀ off : Byte, branchOffset pc target = some off → pc + 2 + off.signExtend 16 = target) ∧
    (branchOffset pc target = none ↔ ∀ off : Byte, pc + 2 + off.signExtend 16 ≠ target)

/-! ## The tick -/

/-- R102, R103: with no request to service, a tick fetches three bytes at PC, PC + 1 and PC + 2
modulo 65536, in this order, and runs the instruction they decode to; its handler still finds PC at
the opcode, and the three reads first in the trace. -/
def Obligations.StepRunsDecodedInstruction : Prop :=
  ∀ s : State, NoRequest s →
    step s = exec (decode (s.peek s.pc) (s.peek (s.pc + 1)) (s.peek (s.pc + 2))) (fetchedState s)

/-- `withFetchWord` lays a word where the very next tick fetches it, and changes no register but
PC (log entry 6, the model's own). -/
def Obligations.PlacedWordRunsNext : Prop :=
  ∀ (s : State) (nbits w : Nat) (i : Instr), s.Inv → decodeTableWord nbits w = some i →
    ∃ t : State, step (s.withFetchWord nbits w) = exec i t ∧
      t.a = s.a ∧ t.x = s.x ∧ t.y = s.y ∧ t.sp = s.sp ∧ t.p = s.p ∧ t.params = s.params ∧
      t.pc = (s.withFetchWord nbits w).pc

/-- R281, R40: the reset tick loads PC from the reset vector, sets SP = 0xFF, I = 1 and B = 1,
clears its latch, reports 0 cycles and makes exactly the two vector reads; everything else keeps
its value, A, X, Y, C, Z, D, V, N, the other latches and all of memory among it. -/
def Obligations.ResetServiceSetsOnlyItsRegisters : Prop :=
  ∀ s : State, s.resetReq = true →
    step s = .next { s with
      pc := wordAt s 0xFFFC, sp := 0xFF, p := { s.p with i := true, b := true }
      resetReq := false, cycles := 0, trace := [readAt s 0xFFFC, readAt s 0xFFFD] }

/-- R258, R259: with no reset pending, a requested NMI is taken whatever I holds: the entry at
0xFFFA with the current PC and bit 4 = 0, its latch cleared, 0 cycles, five accesses. -/
def Obligations.NmiEntersItsHandler : Prop :=
  ∀ s : State, s.Inv → s.resetReq = false → s.nmiReq = true →
    ∃ t : State, step s = .next t ∧ EntersHandler 0xFFFA s.pc false { s with nmiReq := false } t ∧
      t.cycles = 0 ∧ t.trace = entryAccesses 0xFFFA s.pc false s

/-- R258, R260: with neither reset nor NMI pending, a requested IRQ is taken when I = 0: the entry
at 0xFFFE with the current PC and bit 4 = 0, its latch cleared, 0 cycles, five accesses. When I = 1
it is not taken: the tick executes an instruction. -/
def Obligations.IrqEntersItsHandlerWhenEnabled : Prop :=
  ∀ s : State, s.Inv → s.resetReq = false → s.nmiReq = false → s.irqReq = true →
    (s.p.i = false →
      ∃ t : State, step s = .next t ∧ EntersHandler 0xFFFE s.pc false { s with irqReq := false } t ∧
        t.cycles = 0 ∧ t.trace = entryAccesses 0xFFFE s.pc false s) ∧
    (s.p.i = true →
      step s = exec (decode (s.peek s.pc) (s.peek (s.pc + 1)) (s.peek (s.pc + 2))) (fetchedState s))

/-- A tick services at most one latch, by fixed priority, and clears exactly that one; no
instruction reads or writes a latch (R35, R100, R255, R256). -/
def Obligations.EachTickClearsOnlyTheLatchItServices : Prop :=
  ∀ s t : State, step s = .next t →
    (t.resetReq, t.nmiReq, t.irqReq) =
      if s.resetReq then (false, s.nmiReq, s.irqReq)
      else if s.nmiReq then (false, false, s.irqReq)
      else (false, false, s.irqReq && s.p.i)

/-- The example of R256, which the spec derives: with all three pending and no other request, the
first tick services reset, the second NMI, and the third executes the first instruction of the NMI
handler with the IRQ pending. -/
def Obligations.ThreePendingRequestsInOrder : Prop :=
  ∀ s : State, s.Inv → s.resetReq = true → s.nmiReq = true → s.irqReq = true →
    ∃ t u v : State, step s = .next t ∧ step t = .next u ∧ step u = .next v ∧
      (t.resetReq, t.nmiReq, t.irqReq, t.p.i) = (false, true, true, true) ∧
      t.pc = wordAt s 0xFFFC ∧
      (u.resetReq, u.nmiReq, u.irqReq, u.p.i) = (false, false, true, true) ∧
      u.pc = wordAt s 0xFFFA ∧
      step u = exec (decode (u.peek u.pc) (u.peek (u.pc + 1)) (u.peek (u.pc + 2))) (fetchedState u) ∧
      v.irqReq = true

/-- R14: nothing raises an exception. Every instruction completes from every state, and so does
every tick: no fault, no refusal, no stuck state. -/
def Obligations.EveryTickCompletes : Prop :=
  (∀ (i : Instr) (s : State), ∃ t : State, exec i s = .next t) ∧ ∀ s : State, Completes s

/-- Every tick keeps the invariant: RAM and PRG inside their stores (R36), at least one PRG bank
(R59), and both stores in the canonical form, which is the model's own choice (log entry 15). -/
def Obligations.EveryTickKeepsTheInvariant : Prop :=
  ∀ s t : State, s.Inv → step s = .next t → t.Inv

/-- The reset state meets the invariant, and so does every state the host can construct; a
construction is refused exactly when the cartridge is not well-formed (R10, R271, U7). The
canonical form in the invariant (log entry 15), and the empty stores and two banks of the reset
state (log entry 2), are the model's own choices. -/
def Obligations.ConstructedStatesMeetTheInvariant : Prop :=
  State.reset.Inv ∧
  ∀ c : Construction,
    (∀ t : State, construct c = .next t → t.Inv) ∧
    (construct c = .refused .badCartridge ↔
      c.params.prgBanks = 0 ∨ c.prg.length ≠ c.params.prgBanks * 16384)

/-- R39, R280: the state every construction gives: SP, I, B and reset pending as the source states
them; PC = 0 and no NMI or IRQ pending by decision D6 (log entry 1); A, X, Y, C, Z, D, V and N from
`POWER_ON_REGS`; RAM, the PPU registers, the PRG window and the parameters as the host supplied
them. The first tick is the reset service: it leaves SP = 0xFF, P with I, B and bit 5 set, and PC
the reset vector of the image, and reports 0. -/
def Obligations.PowerOnThenFirstTick : Prop :=
  ∀ (c : Construction) (s : State), construct c = .next s →
    s.sp = 0xFF ∧ s.pc = 0 ∧ s.p.i = true ∧ s.p.b = true ∧
    s.resetReq = true ∧ s.nmiReq = false ∧ s.irqReq = false ∧
    s.a = c.powerOn.a ∧ s.x = c.powerOn.x ∧ s.y = c.powerOn.y ∧
    s.p.c = c.powerOn.c ∧ s.p.z = c.powerOn.z ∧ s.p.d = c.powerOn.d ∧ s.p.v = c.powerOn.v ∧
    s.p.n = c.powerOn.n ∧ s.params = c.params ∧
    (∀ a : Word, 0x8000 ≤ a.toNat →
      s.peek a = c.prg.getD ((a.toNat - 0x8000) % (c.params.prgBanks * 16384)) 0) ∧
    (∀ k : Fin 2048, s.peek (BitVec.ofNat 16 k.val) = c.ram0[k.val]) ∧
    (∀ k : Fin 8, s.peek (BitVec.ofNat 16 (0x2000 + k.val)) = c.ppuBuffer[k.val]) ∧
    ∃ t : State, step s = .next t ∧ t.sp = 0xFF ∧ t.cycles = 0 ∧
      t.pc = wordOf (c.prg.getD (0x7FFD % (c.params.prgBanks * 16384)) 0)
        (c.prg.getD (0x7FFC % (c.params.prgBanks * 16384)) 0) ∧
      t.p.pack &&& 0x34 = 0x34

/-- PRG and the parameters are immutable: no tick changes a byte of PRG or a parameter, and no tick
changes what an address from 0x4000 up reads (R10, R36, R52, R59). -/
def Obligations.PrgAndParametersNeverChange : Prop :=
  ∀ s t : State, step s = .next t →
    t.prg = s.prg ∧ t.params = s.params ∧ ∀ a : Word, 0x4000 ≤ a.toNat → t.peek a = s.peek a

/-- The stored B cannot be observed (which R29 derives), and no tick reads the count or the trace of
the tick before (R37, R72, and R292, which the spec derives). Two states that differ in these alone
go through any interleaving of ticks and environment steps side by side, and differ in these alone
after. -/
def Obligations.StoredBreakAndOutputsAreUnobservable : Prop :=
  ∀ (es : List Event) (s s' : State), SameButBreakAndOutputs s s' →
    (sysRun es s = none ∧ sysRun es s' = none) ∨
    ∃ t t' : State, sysRun es s = some t ∧ sysRun es s' = some t' ∧ SameButBreakAndOutputs t t'

/-- R28, R176: from two states that differ in D alone, an instruction that pushes no status leaves
states that differ at most in D; PHP and BRK leave states that differ at most in D and in bit 3 of
the status byte they push, in its stack cell and in the trace. -/
def Obligations.DecimalFlagChangesNoResult : Prop :=
  ∀ (i : Instr) (s s' t t' : State), SameButDecimal s s' → exec i s = .next t → exec i s' = .next t' →
    (i.mnemonic ∉ ["PHP", "BRK"] → SameButDecimal t t') ∧
    (i.mnemonic = "PHP" → s.Inv → SameButPushedDecimal (stackCell s.sp) t t') ∧
    (i.mnemonic = "BRK" → s.Inv → SameButPushedDecimal (stackCell (s.sp - 2)) t t')

/-- A tick reports 0 when it services a request; an instruction reports 2 to 7 under `reads_only`,
and never more than 8 (R9, R120, R124). -/
def Obligations.ReportedCyclesAreBounded : Prop :=
  ∀ s t : State, step s = .next t →
    (NoRequest s → 2 ≤ t.cycles.toNat ∧ t.cycles.toNat ≤ 8 ∧
      (s.params.pagePenaltyScope = .readsOnly → t.cycles.toNat ≤ 7)) ∧
    (¬ NoRequest s → t.cycles = 0)

/-! ## The bus and the stack -/

/-- R51: what a bus read returns in each region of the memory map; it records itself in the trace
and changes nothing else. A two-byte read is two of them, low byte first (R13). -/
def Obligations.BusReadByRegion : Prop :=
  ∀ (a : Word) (s : State),
    memRead a s = (s.peek a, { s with trace := s.trace ++ [readAt s a] }) ∧
    memRead16 a s =
      (wordAt s a, { s with trace := s.trace ++ [readAt s a, readAt s (a + 1)] }) ∧
    (a.toNat ≤ 0x1FFF → s.peek a = s.ram.read (a.toNat % 0x800)) ∧
    (0x2000 ≤ a.toNat → a.toNat ≤ 0x3FFF → s.peek a = s.ppu.get (a.toNat % 8)) ∧
    (0x4000 ≤ a.toNat → a.toNat ≤ 0x7FFF → s.peek a = 0x00) ∧
    (0x8000 ≤ a.toNat →
      s.peek a = s.prg.read ((a.toNat - 0x8000) % (s.params.prgBanks * 16384)))

/-- R52: a bus write stores into the RAM or PPU register cell its address names, is discarded from
0x4000 up, and is in the trace either way; no register, flag, latch, PRG byte or parameter
changes. A two-byte write is the low byte at the address, then the high byte at the next (R13). -/
def Obligations.BusWriteByRegion : Prop :=
  ∀ (a : Word) (v : Byte) (s : State), s.Inv →
    StoresByte s (memWrite a v s) a v ∧
    memWrite a v s = { s with ram := (memWrite a v s).ram, ppu := (memWrite a v s).ppu
                              trace := s.trace ++ [.write a v] } ∧
    (0x4000 ≤ a.toNat → (memWrite a v s).ram = s.ram ∧ (memWrite a v s).ppu = s.ppu) ∧
    ∀ w : Word,
      let t := memWrite16 a w s
      t = { s with ram := t.ram, ppu := t.ppu
                   trace := s.trace ++ [.write a (lowByte w), .write (a + 1) (highByte w)] } ∧
      ∀ b : Word, (SameCell a b → t.peek b = lowByte w) ∧ (SameCell (a + 1) b → t.peek b = highByte w) ∧
        (¬ SameCell a b → ¬ SameCell (a + 1) b → t.peek b = s.peek b)

/-- R53 and R54: the mirrors of a RAM byte and of a PPU register are names of one cell; a write
through any of them is seen by a read through any other. -/
def Obligations.MirrorsNameOneCell : Prop :=
  ∀ (s : State) (v : Byte), s.Inv →
    (∀ k i j : Nat, k < 0x800 → i < 4 → j < 4 →
      (memWrite (BitVec.ofNat 16 (k + 0x800 * i)) v s).peek (BitVec.ofNat 16 (k + 0x800 * j)) = v) ∧
    (∀ k i j : Nat, k < 8 → i < 1024 → j < 1024 →
      (memWrite (BitVec.ofNat 16 (0x2000 + k + 8 * i)) v s).peek
        (BitVec.ofNat 16 (0x2000 + k + 8 * j)) = v)

/-- R59: with one bank, 0x8000 to 0xBFFF and 0xC000 to 0xFFFF are two names of the same bytes; with
two or more, the first 32768 bytes of PRG map once. -/
def Obligations.PrgWindowMirrorsOneBank : Prop :=
  ∀ (s : State) (a : Word), 0x8000 ≤ a.toNat →
    (s.params.prgBanks = 1 → a.toNat ≤ 0xBFFF → s.peek a = s.peek (a + 0x4000)) ∧
    (2 ≤ s.params.prgBanks → s.peek a = s.prg.read (a.toNat - 0x8000))

/-- R63: a push writes at 0x0100 + SP, then SP falls by one modulo 256. -/
def Obligations.PushWritesThenSpFalls : Prop :=
  ∀ (v : Byte) (s : State), s.Inv →
    AfterPushes s (push v s) [v] ∧
    push v s = { s with ram := (push v s).ram, sp := BitVec.ofNat 8 (s.sp.toNat + 255)
                        trace := s.trace ++ [.write (stackCell s.sp) v] }

/-- R64: a pop raises SP by one modulo 256, then reads at 0x0100 + SP; a 16-bit push writes the high
byte first, a 16-bit pop reads the low byte first, and the one after the other gives the word back
with SP restored, across the wrap as well. -/
def Obligations.PopGivesBackWhatWasPushed : Prop :=
  ∀ (s : State) (w : Word), s.Inv →
    pop s = (popped s 1, { s with sp := s.sp + 1, trace := s.trace ++ [popRead s 1] }) ∧
    AfterPushes s (push16 w s) [highByte w, lowByte w] ∧
    (push16 w s).trace = s.trace ++ pushWrites s.sp [highByte w, lowByte w] ∧
    pop16 s = (wordOf (popped s 2) (popped s 1),
      { s with sp := s.sp + 2, trace := s.trace ++ [popRead s 1, popRead s 2] }) ∧
    (pop16 (push16 w s)).1 = w ∧ (pop16 (push16 w s)).2.sp = s.sp

/-- R33, R34: the packed status and what a push of it writes, bit by bit; unpacking undoes packing,
and packing undoes unpacking on every byte with bit 5 set. -/
def Obligations.PackedStatusIsAProjection : Prop :=
  (∀ f : Flags, f.pack = statusByte f f.b ∧ Flags.unpack f.pack = f) ∧
  (∀ (f : Flags) (b : Bool), f.ppush b = statusByte f b) ∧
  (∀ p : Byte, Flags.unpack p = flagsOf p ∧ (p.getLsbD 5 = true → (Flags.unpack p).pack = p))

/-- A fetch sees every earlier write (R71; the spec derives R285 from it): the next instruction
decodes from the bytes as they are after a write, wherever it went. -/
def Obligations.FetchSeesEarlierWrites : Prop :=
  ∀ (s : State) (a : Word) (v : Byte), s.Inv →
    let now := fun b : Word => if SameCell a b then v else s.peek b
    fetchedInstr (memWrite a v s) = decode (now s.pc) (now (s.pc + 1)) (now (s.pc + 2))

/-! ## Addressing -/

/-- R109 to R114, R116, R117: the effective address of every mode in plain arithmetic, with the
wraps in page 0 and at 0xFFFF, when the page is crossed, the pointer reads, and the length. A mode
with no pointer makes no read before its operand's: there is no dummy read (R119; the
spec's decision D12). -/
def Obligations.EffectiveAddressOfEveryMode : Prop :=
  ∀ (s : State) (a : Byte) (w : Word),
    let ptr := fun p : Nat => 256 * (s.peek (BitVec.ofNat 16 ((p + 1) % 256))).toNat +
      (s.peek (BitVec.ofNat 16 (p % 256))).toNat
    let ptrReads := fun p : Nat => [BitVec.ofNat 16 (p % 256), BitVec.ofNat 16 ((p + 1) % 256)]
    ((ea (.zp a) s).toNat = a.toNat ∧ crosses (.zp a) s = false ∧
      pointerReads (.zp a) s = [] ∧ (MemMode.zp a).size = 2) ∧
    ((ea (.zpX a) s).toNat = (a.toNat + s.x.toNat) % 256 ∧ crosses (.zpX a) s = false ∧
      pointerReads (.zpX a) s = [] ∧ (MemMode.zpX a).size = 2) ∧
    ((ea (.zpY a) s).toNat = (a.toNat + s.y.toNat) % 256 ∧ crosses (.zpY a) s = false ∧
      pointerReads (.zpY a) s = [] ∧ (MemMode.zpY a).size = 2) ∧
    (ea (.abs w) s = w ∧ crosses (.abs w) s = false ∧ pointerReads (.abs w) s = [] ∧
      (MemMode.abs w).size = 3) ∧
    ((ea (.absX w) s).toNat = (w.toNat + s.x.toNat) % 65536 ∧
      (crosses (.absX w) s = true ↔ 256 ≤ w.toNat % 256 + s.x.toNat) ∧
      pointerReads (.absX w) s = [] ∧ (MemMode.absX w).size = 3) ∧
    ((ea (.absY w) s).toNat = (w.toNat + s.y.toNat) % 65536 ∧
      (crosses (.absY w) s = true ↔ 256 ≤ w.toNat % 256 + s.y.toNat) ∧
      pointerReads (.absY w) s = [] ∧ (MemMode.absY w).size = 3) ∧
    ((ea (.indX a) s).toNat = ptr (a.toNat + s.x.toNat) ∧ crosses (.indX a) s = false ∧
      pointerReads (.indX a) s = ptrReads (a.toNat + s.x.toNat) ∧ (MemMode.indX a).size = 2) ∧
    ((ea (.indY a) s).toNat = (ptr a.toNat + s.y.toNat) % 65536 ∧
      (crosses (.indY a) s = true ↔ 256 ≤ ptr a.toNat % 256 + s.y.toNat) ∧
      pointerReads (.indY a) s = ptrReads a.toNat ∧ (MemMode.indY a).size = 2)

/-! ## Loads, stores, transfers -/

/-- R140, R141, R142: LDA, LDX and LDY in every mode: the register, Z and N from M; nothing else. -/
def Obligations.LoadsSetRegisterAndZN : Prop :=
  AccEncodings .lda 0xA9 0xA5 0xB5 0xAD 0xBD 0xB9 0xA1 0xB1 ∧
  (∀ l h : Byte, decode 0xA2 l h = .ldx (.imm l) ∧ decode 0xA6 l h = .ldx (.mem (.zp l)) ∧
    decode 0xB6 l h = .ldx (.mem (.zpY l)) ∧ decode 0xAE l h = .ldx (.mem (.abs (wordOf h l))) ∧
    decode 0xBE l h = .ldx (.mem (.absY (wordOf h l))) ∧
    decode 0xA0 l h = .ldy (.imm l) ∧ decode 0xA4 l h = .ldy (.mem (.zp l)) ∧
    decode 0xB4 l h = .ldy (.mem (.zpX l)) ∧ decode 0xAC l h = .ldy (.mem (.abs (wordOf h l))) ∧
    decode 0xBC l h = .ldy (.mem (.absX (wordOf h l)))) ∧
  ∀ (o : ReadMode) (s : State),
    let t := advanced s o.size (readCost o s) (operandReads o s)
    let m := operandValue o s
    exec (.lda o) s = .next { t with a := m, p := withZN s.p m } ∧
    exec (.ldx o) s = .next { t with x := m, p := withZN s.p m } ∧
    exec (.ldy o) s = .next { t with y := m, p := withZN s.p m }

/-- R143, R144, R145: STA, STX and STY in every mode: one write of the register at EA, which is
never read; no register and no flag changes. -/
def Obligations.StoresWriteOneByteAtEa : Prop :=
  (∀ l h : Byte, decode 0x85 l h = .sta (.zp l) ∧ decode 0x95 l h = .sta (.zpX l) ∧
    decode 0x8D l h = .sta (.abs (wordOf h l)) ∧ decode 0x9D l h = .sta (.absX (wordOf h l)) ∧
    decode 0x99 l h = .sta (.absY (wordOf h l)) ∧ decode 0x81 l h = .sta (.indX l) ∧
    decode 0x91 l h = .sta (.indY l) ∧
    decode 0x86 l h = .stx (.zp l) ∧ decode 0x96 l h = .stx (.zpY l) ∧
    decode 0x8E l h = .stx (.abs (wordOf h l)) ∧
    decode 0x84 l h = .sty (.zp l) ∧ decode 0x94 l h = .sty (.zpX l) ∧
    decode 0x8C l h = .sty (.abs (wordOf h l))) ∧
  ∀ m : MemMode, StoreResult (.sta m) m (fun s => s.a) ∧ StoreResult (.stx m) m (fun s => s.x) ∧
    StoreResult (.sty m) m (fun s => s.y)

/-- R146 to R151: the transfers, with Z and N from the value moved, but for TXS, which writes no
flag. -/
def Obligations.TransfersCopyOneRegister : Prop :=
  OneByte 0xAA .tax ∧ OneByte 0xA8 .tay ∧ OneByte 0x8A .txa ∧ OneByte 0x98 .tya ∧
  OneByte 0xBA .tsx ∧ OneByte 0x9A .txs ∧
  ∀ s : State,
    let t := advanced s 1 2 []
    exec .tax s = .next { t with x := s.a, p := withZN s.p s.a } ∧
    exec .tay s = .next { t with y := s.a, p := withZN s.p s.a } ∧
    exec .txa s = .next { t with a := s.x, p := withZN s.p s.x } ∧
    exec .tya s = .next { t with a := s.y, p := withZN s.p s.y } ∧
    exec .tsx s = .next { t with x := s.sp, p := withZN s.p s.sp } ∧
    exec .txs s = .next { t with sp := s.x }

/-! ## Arithmetic and logic -/

/-- R161 (and R160's law of V): ADC in every mode. The result is `A + M + C` modulo 256, C whether
that exceeds 255, V whether the signs of A and M agree and the result's differs, which is whether
the signed sum leaves -128 to 127; Z and N from the result; I, D and B unchanged. -/
def Obligations.AdcAddsWithCarry : Prop :=
  AccEncodings .adc 0x69 0x65 0x75 0x6D 0x7D 0x79 0x61 0x71 ∧
  ∀ (o : ReadMode) (s : State),
    let m := operandValue o s
    let sum := s.a.toNat + m.toNat + s.p.c.toNat
    let r := BitVec.ofNat 8 sum
    let v := s.a.msb == m.msb && s.a.msb != r.msb
    let signed := s.a.toInt + m.toInt + (s.p.c.toNat : Int)
    exec (.adc o) s = .next { advanced s o.size (readCost o s) (operandReads o s) with
      a := r, p := withZN { s.p with c := decide (255 < sum), v := v } r } ∧
    (v = true ↔ signed < -128 ∨ 127 < signed)

/-- R162: SBC in every mode. The result is `A - M - (1 - C)` modulo 256, C is 1 exactly when there
is no borrow, V the signed overflow; Z and N from the result; I, D and B unchanged. -/
def Obligations.SbcSubtractsWithBorrow : Prop :=
  AccEncodings .sbc 0xE9 0xE5 0xF5 0xED 0xFD 0xF9 0xE1 0xF1 ∧
  ∀ (o : ReadMode) (s : State),
    let m := operandValue o s
    let borrow := 1 - s.p.c.toNat
    let r := BitVec.ofInt 8 ((s.a.toNat : Int) - m.toNat - borrow)
    let signed := s.a.toInt - m.toInt - (borrow : Int)
    exec (.sbc o) s = .next { advanced s o.size (readCost o s) (operandReads o s) with
      a := r
      p := withZN { s.p with c := decide (m.toNat + borrow ≤ s.a.toNat)
                             v := decide (signed < -128 ∨ 127 < signed) } r }

/-- R163, R164, R165: AND, ORA and EOR in every mode: A, Z and N; C and V unaffected. -/
def Obligations.LogicSetsAccumulatorAndZN : Prop :=
  AccEncodings .and 0x29 0x25 0x35 0x2D 0x3D 0x39 0x21 0x31 ∧
  AccEncodings .ora 0x09 0x05 0x15 0x0D 0x1D 0x19 0x01 0x11 ∧
  AccEncodings .eor 0x49 0x45 0x55 0x4D 0x5D 0x59 0x41 0x51 ∧
  ∀ (o : ReadMode) (s : State),
    let t := advanced s o.size (readCost o s) (operandReads o s)
    let m := operandValue o s
    exec (.and o) s = .next { t with a := s.a &&& m, p := withZN s.p (s.a &&& m) } ∧
    exec (.ora o) s = .next { t with a := s.a ||| m, p := withZN s.p (s.a ||| m) } ∧
    exec (.eor o) s = .next { t with a := s.a ^^^ m, p := withZN s.p (s.a ^^^ m) }

/-- R166: BIT: Z from `A & M`, N and V from bits 7 and 6 of M; A unchanged. -/
def Obligations.BitTestsTheOperand : Prop :=
  (∀ l h : Byte, decode 0x24 l h = .bit (.zp l) ∧ decode 0x2C l h = .bit (.abs (wordOf h l))) ∧
  ∀ m : MemMode, ReadsIntoFlags (.bit m) (.mem m) fun s =>
    let v := s.peek (ea m s)
    { s.p with z := decide (s.a &&& v = 0), n := decide (128 ≤ v.toNat)
               v := decide (v.toNat / 64 % 2 = 1) }

/-- R167, R168, R169: CMP, CPX and CPY in every mode: C is register >= M unsigned, Z equality, N
bit 7 of the 8-bit difference; V and every register unchanged, and the incoming C takes no part. -/
def Obligations.ComparesSetCarryZeroNegative : Prop :=
  AccEncodings .cmp 0xC9 0xC5 0xD5 0xCD 0xDD 0xD9 0xC1 0xD1 ∧
  (∀ l h : Byte, decode 0xE0 l h = .cpx (.imm l) ∧ decode 0xE4 l h = .cpx (.mem (.zp l)) ∧
    decode 0xEC l h = .cpx (.mem (.abs (wordOf h l))) ∧
    decode 0xC0 l h = .cpy (.imm l) ∧ decode 0xC4 l h = .cpy (.mem (.zp l)) ∧
    decode 0xCC l h = .cpy (.mem (.abs (wordOf h l)))) ∧
  ∀ o : ReadMode,
    ReadsIntoFlags (.cmp o) o (fun s => compareFlags s.p s.a (operandValue o s)) ∧
    ReadsIntoFlags (.cpx o) o (fun s => compareFlags s.p s.x (operandValue o s)) ∧
    ReadsIntoFlags (.cpy o) o (fun s => compareFlags s.p s.y (operandValue o s))

/-- R170, R171: INC and DEC in every mode: one read and one write at EA, Z and N from the result
even where the write is discarded; C, V and every register unchanged. -/
def Obligations.IncDecRewriteOneByte : Prop :=
  RmwEncodings .inc 0xE6 0xF6 0xEE 0xFE ∧ RmwEncodings .dec 0xC6 0xD6 0xCE 0xDE ∧
  ∀ m : MemMode,
    RmwResult (.inc m) m (fun _ v => BitVec.ofNat 8 (v.toNat + 1))
      (fun s v => withZN s.p (BitVec.ofNat 8 (v.toNat + 1))) ∧
    RmwResult (.dec m) m (fun _ v => BitVec.ofNat 8 (v.toNat + 255))
      (fun s v => withZN s.p (BitVec.ofNat 8 (v.toNat + 255)))

/-- R172 to R175: INX, INY, DEX and DEY, modulo 256, with Z and N. -/
def Obligations.IndexStepsWrapAndSetZN : Prop :=
  OneByte 0xE8 .inx ∧ OneByte 0xC8 .iny ∧ OneByte 0xCA .dex ∧ OneByte 0x88 .dey ∧
  ∀ s : State,
    let t := advanced s 1 2 []
    let up := fun v : Byte => BitVec.ofNat 8 (v.toNat + 1)
    let down := fun v : Byte => BitVec.ofNat 8 (v.toNat + 255)
    exec .inx s = .next { t with x := up s.x, p := withZN s.p (up s.x) } ∧
    exec .iny s = .next { t with y := up s.y, p := withZN s.p (up s.y) } ∧
    exec .dex s = .next { t with x := down s.x, p := withZN s.p (down s.x) } ∧
    exec .dey s = .next { t with y := down s.y, p := withZN s.p (down s.y) }

/-! ## Shifts and rotates -/

/-- R190, R191, R192: ASL and LSR on A and on memory: C is the bit shifted out, Z and N from the
result; V, I and D unchanged. -/
def Obligations.ShiftsMoveOneBitIntoCarry : Prop :=
  OneByte 0x0A (.asl .acc) ∧ RmwEncodings (fun m => .asl (.mem m)) 0x06 0x16 0x0E 0x1E ∧
  OneByte 0x4A (.lsr .acc) ∧ RmwEncodings (fun m => .lsr (.mem m)) 0x46 0x56 0x4E 0x5E ∧
  let left := fun (_ : State) (v : Byte) => BitVec.ofNat 8 (2 * v.toNat)
  let right := fun (_ : State) (v : Byte) => BitVec.ofNat 8 (v.toNat / 2)
  let leftF := fun (s : State) (v : Byte) => shiftFlags s (decide (128 ≤ v.toNat)) (left s v)
  let rightF := fun (s : State) (v : Byte) => shiftFlags s (decide (v.toNat % 2 = 1)) (right s v)
  AccShiftResult (.asl .acc) left leftF ∧ AccShiftResult (.lsr .acc) right rightF ∧
  ∀ m : MemMode, RmwResult (.asl (.mem m)) m left leftF ∧ RmwResult (.lsr (.mem m)) m right rightF

/-- R190, R193, R194: ROL and ROR on A and on memory: the old C comes in, C is the bit shifted out,
Z and N from the result; V, I and D unchanged. -/
def Obligations.RotatesPassThroughCarry : Prop :=
  OneByte 0x2A (.rol .acc) ∧ RmwEncodings (fun m => .rol (.mem m)) 0x26 0x36 0x2E 0x3E ∧
  OneByte 0x6A (.ror .acc) ∧ RmwEncodings (fun m => .ror (.mem m)) 0x66 0x76 0x6E 0x7E ∧
  let left := fun (s : State) (v : Byte) => BitVec.ofNat 8 (2 * v.toNat + s.p.c.toNat)
  let right := fun (s : State) (v : Byte) => BitVec.ofNat 8 (128 * s.p.c.toNat + v.toNat / 2)
  let leftF := fun (s : State) (v : Byte) => shiftFlags s (decide (128 ≤ v.toNat)) (left s v)
  let rightF := fun (s : State) (v : Byte) => shiftFlags s (decide (v.toNat % 2 = 1)) (right s v)
  AccShiftResult (.rol .acc) left leftF ∧ AccShiftResult (.ror .acc) right rightF ∧
  ∀ m : MemMode, RmwResult (.rol (.mem m)) m left leftF ∧ RmwResult (.ror (.mem m)) m right rightF

/-! ## Control flow -/

/-- R200 to R208: the eight branches. -/
def Obligations.BranchesFollowTheirFlag : Prop :=
  BranchResult .bpl 0x10 (fun f => !f.n) ∧ BranchResult .bmi 0x30 (fun f => f.n) ∧
  BranchResult .bvc 0x50 (fun f => !f.v) ∧ BranchResult .bvs 0x70 (fun f => f.v) ∧
  BranchResult .bcc 0x90 (fun f => !f.c) ∧ BranchResult .bcs 0xB0 (fun f => f.c) ∧
  BranchResult .bne 0xD0 (fun f => !f.z) ∧ BranchResult .beq 0xF0 (fun f => f.z)

/-- R209, R115, R210: JMP absolute sets PC to its operand. JMP indirect reads the low byte at the
pointer, then the high byte: in the pointer's own page when `JMP_IND_PAGE_WRAP`, else at the next
address. -/
def Obligations.JumpsSetPcToTheirTarget : Prop :=
  (∀ l h : Byte, decode 0x4C l h = .jmpAbs (wordOf h l) ∧ decode 0x6C l h = .jmpInd (wordOf h l)) ∧
  ∀ (w : Word) (s : State),
    let second := if s.params.jmpIndPageWrap
      then BitVec.ofNat 16 (256 * (w.toNat / 256) + (w.toNat + 1) % 256)
      else BitVec.ofNat 16 (w.toNat + 1)
    exec (.jmpAbs w) s = .next { s with pc := w, cycles := 3 } ∧
    exec (.jmpInd w) s = .next { s with
      pc := wordOf (s.peek second) (s.peek w), cycles := 5
      trace := s.trace ++ [readAt s w, readAt s second] }

/-- R211: JSR pushes the address of its own last byte, high byte first, and jumps to the operand of
the fetch; no flag and no other register changes. -/
def Obligations.JsrPushesItsLastByteAddress : Prop :=
  (∀ l h : Byte, decode 0x20 l h = .jsr (wordOf h l)) ∧
  ∀ (w : Word) (s : State), s.Inv → ∃ t : State, exec (.jsr w) s = .next t ∧
    AfterPushes s t [highByte (s.pc + 2), lowByte (s.pc + 2)] ∧
    t = { s with ram := t.ram, sp := s.sp - 2, pc := w, cycles := 6
                 trace := s.trace ++ pushWrites s.sp [highByte (s.pc + 2), lowByte (s.pc + 2)] }

/-- R212: RTS pops low, then high, and adds 1; P is not popped. -/
def Obligations.RtsReturnsPastThePoppedAddress : Prop :=
  OneByte 0x60 .rts ∧
  ∀ s : State, exec .rts s = .next { s with
    pc := wordOf (popped s 2) (popped s 1) + 1, sp := s.sp + 2, cycles := 6
    trace := s.trace ++ [popRead s 1, popRead s 2] }

/-- The round trip of R213, which the spec derives from R211 and R212: JSR at P, then RTS from the
state it leaves, resumes at P + 3 with SP, A, X, Y and the flags restored, for every P and every
target. The two pushed bytes stay in the stack page. -/
def Obligations.JsrThenRtsResumes : Prop :=
  ∀ (w : Word) (s t u : State), s.Inv → exec (.jsr w) s = .next t → exec .rts t = .next u →
    u.pc = s.pc + 3 ∧ u.sp = s.sp ∧ u.a = s.a ∧ u.x = s.x ∧ u.y = s.y ∧ u.p = s.p

/-! ## Stack, flags, system -/

/-- R220, R221: PHA pushes A, PHP the status with bits 4 and 5 set; no flag, the stored B among
them, and no register but SP changes. -/
def Obligations.PhaAndPhpPushOneByte : Prop :=
  OneByte 0x48 .pha ∧ OneByte 0x08 .php ∧
  ∀ s : State, s.Inv →
    (∃ t : State, exec .pha s = .next t ∧ AfterPushes s t [s.a] ∧
      t = { advanced s 1 3 (pushWrites s.sp [s.a]) with ram := t.ram, sp := s.sp - 1 }) ∧
    (∃ t : State, exec .php s = .next t ∧ AfterPushes s t [statusByte s.p true] ∧
      t = { advanced s 1 3 (pushWrites s.sp [statusByte s.p true]) with
            ram := t.ram, sp := s.sp - 1 })

/-- R222, R223: PLA pops A with Z and N; PLP pops every flag but U. -/
def Obligations.PlaAndPlpPopOneByte : Prop :=
  OneByte 0x68 .pla ∧ OneByte 0x28 .plp ∧
  ∀ s : State,
    let t := { advanced s 1 4 [popRead s 1] with sp := s.sp + 1 }
    exec .pla s = .next { t with a := popped s 1, p := withZN s.p (popped s 1) } ∧
    exec .plp s = .next { t with p := flagsOf (popped s 1) }

/-- R224 to R230: the flag instructions write their one flag. -/
def Obligations.FlagInstructionsWriteOneFlag : Prop :=
  FlagResult .clc 0x18 (fun f => { f with c := false }) ∧
  FlagResult .sec 0x38 (fun f => { f with c := true }) ∧
  FlagResult .cli 0x58 (fun f => { f with i := false }) ∧
  FlagResult .sei 0x78 (fun f => { f with i := true }) ∧
  FlagResult .cld 0xD8 (fun f => { f with d := false }) ∧
  FlagResult .sed 0xF8 (fun f => { f with d := true }) ∧
  FlagResult .clv 0xB8 (fun f => { f with v := false })

/-- R231: BRK enters the handler at 0xFFFE whatever I holds, with the address after its padding byte
and bit 4 set in the pushed status; the stored B and the latches are unchanged; 7 cycles. -/
def Obligations.BrkEntersTheIrqHandler : Prop :=
  (∀ l h : Byte, decode 0x00 l h = .brk l) ∧
  ∀ (pad : Byte) (s : State), s.Inv → ∃ t : State, exec (.brk pad) s = .next t ∧
    EntersHandler 0xFFFE (s.pc + 2) true s t ∧ t.cycles = 7 ∧
    t.trace = s.trace ++ entryAccesses 0xFFFE (s.pc + 2) true s

/-- R232: RTI pops the status, then PC, low byte first, with no +1. -/
def Obligations.RtiPopsStatusThenPc : Prop :=
  OneByte 0x40 .rti ∧
  ∀ s : State, exec .rti s = .next { s with
    p := flagsOf (popped s 1), pc := wordOf (popped s 3) (popped s 2), sp := s.sp + 3, cycles := 6
    trace := s.trace ++ [popRead s 1, popRead s 2, popRead s 3] }

/-- R233, R236, R123: NOP and every undefined opcode only advance PC by 1, and cost 2. -/
def Obligations.NopAndUndefinedOnlyAdvancePc : Prop :=
  OneByte 0xEA .nop ∧ (∀ op ∈ undefinedBytes, OneByte op (.undef op)) ∧
  ∀ s : State, exec .nop s = .next { s with pc := s.pc + 1, cycles := 2 } ∧
    ∀ op : Byte, exec (.undef op) s = .next { s with pc := s.pc + 1, cycles := 2 }

/-- An interrupt entry is undone by RTI, as far as the registers go: from the state after an NMI or
IRQ entry, RTI resumes at the interrupted PC with A, X, Y, SP and every flag but the stored B
restored (R258, R262, and R261, which the spec derives). The serviced latch stays clear and the
three pushed bytes stay in the stack page. -/
def Obligations.RtiUndoesAnInterruptEntry : Prop :=
  ∀ s t u : State, s.Inv → s.resetReq = false →
    (s.nmiReq = true ∨ (s.irqReq = true ∧ s.p.i = false)) →
    step s = .next t → exec .rti t = .next u →
    u.pc = s.pc ∧ u.sp = s.sp ∧ u.a = s.a ∧ u.x = s.x ∧ u.y = s.y ∧ u.p = { s.p with b := false }

/-! ## Whole-machine rules -/

/-- Which instructions can change A, X, Y, SP and memory: the lists of R21, R22 and R23, and the
writes of R119 and of the pushes. -/
def Obligations.OnlyListedInstructionsWriteRegisters : Prop :=
  ∀ (i : Instr) (s t : State), exec i s = .next t →
    (t.a = s.a ∨ i.mnemonic ∈ ["LDA", "ADC", "SBC", "AND", "ORA", "EOR", "TXA", "TYA", "PLA"] ∨
      i.mode = .accumulator) ∧
    (t.x = s.x ∨ i.mnemonic ∈ ["LDX", "TAX", "TSX", "INX", "DEX"]) ∧
    (t.y = s.y ∨ i.mnemonic ∈ ["LDY", "TAY", "INY", "DEY"]) ∧
    (t.sp = s.sp ∨ i.mnemonic ∈ ["PHA", "PHP", "PLA", "PLP", "JSR", "RTS", "BRK", "RTI", "TXS"]) ∧
    ((t.ram = s.ram ∧ t.ppu = s.ppu) ∨ i.mnemonic ∈ ["STA", "STX", "STY", "INC", "DEC", "ASL", "LSR",
      "ROL", "ROR", "PHA", "PHP", "JSR", "BRK"])

/-- Which instructions can change each flag: the lists of R25 to R29, R31 and R32. -/
def Obligations.OnlyListedInstructionsWriteFlags : Prop :=
  ∀ (i : Instr) (s t : State), exec i s = .next t →
    let zn := ["LDA", "LDX", "LDY", "TAX", "TAY", "TXA", "TYA", "TSX", "PLA", "ADC", "SBC", "AND",
      "ORA", "EOR", "INC", "DEC", "INX", "INY", "DEX", "DEY", "ASL", "LSR", "ROL", "ROR", "CMP",
      "CPX", "CPY", "BIT", "PLP", "RTI"]
    (t.p.c = s.p.c ∨ i.mnemonic ∈ ["ADC", "SBC", "CMP", "CPX", "CPY", "ASL", "LSR", "ROL", "ROR",
      "CLC", "SEC", "PLP", "RTI"]) ∧
    (t.p.z = s.p.z ∨ i.mnemonic ∈ zn) ∧ (t.p.n = s.p.n ∨ i.mnemonic ∈ zn) ∧
    (t.p.i = s.p.i ∨ i.mnemonic ∈ ["SEI", "CLI", "BRK", "PLP", "RTI"]) ∧
    (t.p.d = s.p.d ∨ i.mnemonic ∈ ["SED", "CLD", "PLP", "RTI"]) ∧
    (t.p.b = s.p.b ∨ i.mnemonic ∈ ["PLP", "RTI"]) ∧
    (t.p.v = s.p.v ∨ i.mnemonic ∈ ["ADC", "SBC", "BIT", "CLV", "PLP", "RTI"])

/-- Every instruction that transfers no control leaves PC at the byte after it, modulo 65536, and
never touches a latch (R35, R104, R105). -/
def Obligations.PcAdvancesByTheLength : Prop :=
  ∀ (i : Instr) (s t : State), exec i s = .next t →
    (t.pc = BitVec.ofNat 16 (s.pc.toNat + i.size) ∨ i.mnemonic ∈ ["BPL", "BMI", "BVC", "BVS", "BCC",
      "BCS", "BNE", "BEQ", "JMP", "JSR", "RTS", "RTI", "BRK"]) ∧
    (t.resetReq, t.nmiReq, t.irqReq) = (s.resetReq, s.nmiReq, s.irqReq)

/-! ## The environment -/

/-- R252, R253, R254: each request sets its latch and nothing else; asking again changes nothing. -/
def Obligations.RequestsSetTheirLatchOnce : Prop :=
  ∀ s : State,
    envStep .requestIrq s = some { s with irqReq := true } ∧
    envStep .requestNmi s = some { s with nmiReq := true } ∧
    envStep .requestReset s = some { s with resetReq := true } ∧
    ∀ e : EnvAction, e = .requestIrq ∨ e = .requestNmi ∨ e = .requestReset →
      ∀ t : State, envStep e s = some t → envStep e t = some t

/-- What the environment writes between ticks the next bus read sees: any PPU register cell, from
every state, and a RAM cell exactly under `ENV_WRITES_RAM`, where without it the move does not exist;
it never changes a register, a flag, a latch, PRG or a parameter (R68, R70, R271). -/
def Obligations.EnvironmentWritesAreSeen : Prop :=
  ∀ (s : State) (v : Byte),
    (∀ k : Fin 8, ∃ t : State, envStep (.ppuWrite k v) s = some t ∧
      StoresByte s t (BitVec.ofNat 16 (0x2000 + k.val)) v ∧ t = { s with ppu := t.ppu }) ∧
    (∀ k : Fin 2048,
      (s.params.envWritesRam = true → ∃ t : State, envStep (.ramWrite k v) s = some t ∧
        (s.Inv → StoresByte s t (BitVec.ofNat 16 k.val) v) ∧ t = { s with ram := t.ram }) ∧
      (s.params.envWritesRam = false → envStep (.ramWrite k v) s = none))

/-- From every state that meets the invariant, a tick, and every environment step that exists in the
run, goes on to a state that meets it, with PRG and the parameters unchanged; and so does every
interleaving of them: the core never stops, whatever the other agents do and whenever they do it
(R14, R66, R70, R235, R271; the canonical form in the invariant is the model's own, log entry 15).
The end of a run at `E` is its first tick boundary with `PC == E` and no latch set (R272): every
earlier state of the interleaving fails that test, and the end is right after a tick, or the start:
that the start counts as a tick boundary is the model's reading (log entry 9, DEDUCED). -/
def Obligations.EveryInterleavingGoesOn : Prop :=
  (∀ (e : Event) (s : State), s.Inv → allowed s.params e = true →
    ∃ t : State, sysStep e s = some t ∧ t.Inv ∧ t.prg = s.prg ∧ t.params = s.params) ∧
  (∀ (es : List Event) (s : State), s.Inv → (∀ e ∈ es, allowed s.params e = true) →
    ∃ t : State, sysRun es s = some t ∧ t.Inv ∧ t.prg = s.prg ∧ t.params = s.params) ∧
  ∀ (e : Word) (es rest : List Event) (s t : State),
    runToEnd e es s = some (t, rest) ↔
      ∃ done : List Event, es = done ++ rest ∧ sysRun done s = some t ∧
        t.pc = e ∧ (t.resetReq, t.nmiReq, t.irqReq) = (false, false, false) ∧
        (done = [] ∨ ∃ before : List Event, done = before ++ [Event.tick]) ∧
        ∀ (p q : List Event) (u : State), done = p ++ q → q ≠ [] → sysRun p s = some u →
          ¬ (u.pc = e ∧ (u.resetReq, u.nmiReq, u.irqReq) = (false, false, false))
end

