-- ==== Sys2Proof/Laws/Memory.lean ====
section
/-!
SUPPORT. The laws of sparse memories: a read after a write, and that every operation keeps the
canonical form. Later files cite these and do not unfold `Memory.read` or `Memory.write`.
-/

namespace Sys2Proof.Machine

/-- The tail of a canonical memory is canonical. -/
theorem Memory.wf_tail {c : Host.Cell} {m : Memory} (h : Memory.wf (c :: m)) : Memory.wf m :=
  ⟨(List.pairwise_cons.1 h.1).2, fun p hp => h.2 p (List.mem_cons_of_mem _ hp)⟩

/-- The empty memory is canonical. -/
theorem Memory.wf_nil : Memory.wf [] := ⟨List.Pairwise.nil, by simp⟩

/-- An index below every listed one reads as unlisted. -/
theorem Memory.read_of_lt {m : Memory} {k : Nat} (h : ∀ p ∈ m, k < p.1) :
    Memory.read m k = unlisted := by
  induction m with
  | nil => rfl
  | cons c m ih =>
    obtain ⟨j, b⟩ := c
    have hj : k < j := h (j, b) (List.mem_cons_self ..)
    simp only [Memory.read]
    rw [if_neg (by omega)]
    exact ih fun p hp => h p (List.mem_cons_of_mem _ hp)

/-- In a canonical memory the indices after the head are greater than the head's. -/
theorem Memory.lt_of_mem_tail {j : Nat} {b : Byte} {m : Memory} (h : Memory.wf ((j, b) :: m)) :
    ∀ p ∈ m, j < p.1 := (List.pairwise_cons.1 h.1).1

/-- Reading where a write went gives the value written. -/
theorem Memory.read_write_same {m : Memory} (h : Memory.wf m) (k : Nat) (v : Byte) :
    Memory.read (Memory.write m k v) k = v := by
  induction m with
  | nil =>
    by_cases hv : v = unlisted
    · simp [Memory.write, Memory.read, hv]
    · simp [Memory.write, Memory.read, hv]
  | cons c m ih =>
    obtain ⟨j, b⟩ := c
    have hlt := Memory.lt_of_mem_tail h
    simp only [Memory.write]
    split
    · rename_i hkj
      split
      · rename_i hv
        rw [hv]
        refine Memory.read_of_lt fun p hp => ?_
        rcases List.mem_cons.1 hp with rfl | hp
        · exact hkj
        · exact lt_trans hkj (hlt p hp)
      · simp [Memory.read]
    · split
      · rename_i hkj
        split
        · rename_i hv
          rw [hv]
          exact Memory.read_of_lt fun p hp => hkj ▸ hlt p hp
        · simp [Memory.read]
      · rename_i hne
        simp only [Memory.read]
        rw [if_neg (fun e => hne e.symm)]
        exact ih (Memory.wf_tail h)

/-- A write leaves every other index alone. -/
theorem Memory.read_write_other (m : Memory) {k n : Nat} (hn : n ≠ k) (v : Byte) :
    Memory.read (Memory.write m k v) n = Memory.read m n := by
  induction m with
  | nil =>
    by_cases hv : v = unlisted
    · simp [Memory.write, hv]
    · simp [Memory.write, Memory.read, hv, Ne.symm hn]
  | cons c m ih =>
    obtain ⟨j, b⟩ := c
    simp only [Memory.write]
    split
    · split
      · rfl
      · simp [Memory.read, Ne.symm hn]
    · split
      · rename_i hkj
        split <;> simp [Memory.read, hkj ▸ Ne.symm hn, Ne.symm hn]
      · simp only [Memory.read]
        split
        · rfl
        · exact ih

/-- The indices a write leaves listed. -/
theorem Memory.mem_write {m : Memory} {k : Nat} {v : Byte} {p : Host.Cell}
    (h : p ∈ Memory.write m k v) : (p = (k, v) ∧ v ≠ unlisted) ∨ p ∈ m := by
  induction m with
  | nil =>
    by_cases hv : v = unlisted
    · simp [Memory.write, hv] at h
    · simp [Memory.write, hv] at h
      exact Or.inl ⟨h, hv⟩
  | cons c m ih =>
    obtain ⟨j, b⟩ := c
    simp only [Memory.write] at h
    split at h
    · split at h
      · exact Or.inr h
      · rename_i hv
        rcases List.mem_cons.1 h with h | h
        · exact Or.inl ⟨h, hv⟩
        · exact Or.inr h
    · split at h
      · split at h
        · exact Or.inr (List.mem_cons_of_mem _ h)
        · rename_i hv
          rcases List.mem_cons.1 h with h | h
          · exact Or.inl ⟨h, hv⟩
          · exact Or.inr (List.mem_cons_of_mem _ h)
      · rcases List.mem_cons.1 h with h | h
        · exact Or.inr (h ▸ List.mem_cons_self ..)
        · rcases ih h with h | h
          · exact Or.inl h
          · exact Or.inr (List.mem_cons_of_mem _ h)

/-- A write keeps the canonical form. -/
theorem Memory.wf_write {m : Memory} (h : Memory.wf m) (k : Nat) (v : Byte) :
    Memory.wf (Memory.write m k v) := by
  refine ⟨?_, fun p hp => ?_⟩
  · induction m with
    | nil => simp only [Memory.write]; split <;> simp
    | cons c m ih =>
      obtain ⟨j, b⟩ := c
      have hlt := Memory.lt_of_mem_tail h
      have ht := (Memory.wf_tail h).1
      simp only [Memory.write]
      split
      · rename_i hkj
        split
        · exact h.1
        · refine List.pairwise_cons.2 ⟨fun p hp => ?_, h.1⟩
          rcases List.mem_cons.1 hp with rfl | hp
          · exact hkj
          · exact lt_trans hkj (hlt p hp)
      · split
        · rename_i hkj
          split
          · exact ht
          · exact List.pairwise_cons.2 ⟨fun p hp => hkj ▸ hlt p hp, ht⟩
        · rename_i h1 h2
          refine List.pairwise_cons.2 ⟨fun p hp => ?_, ih (Memory.wf_tail h)⟩
          rcases Memory.mem_write hp with ⟨rfl, -⟩ | hp
          · simp only; omega
          · exact hlt p hp
  · rcases Memory.mem_write hp with ⟨rfl, hv⟩ | hp
    · exact hv
    · exact h.2 p hp

/-- A write below `n` keeps every index below `n`. -/
theorem Memory.below_write {m : Memory} {n k : Nat} (h : Memory.below m n) (hk : k < n) (v : Byte) :
    Memory.below (Memory.write m k v) n := by
  intro p hp
  rcases Memory.mem_write hp with ⟨rfl, -⟩ | hp
  · exact hk
  · exact h p hp

/-- The indices of a laid-out list of bytes. -/
theorem Memory.mem_ofBytes {bs : List Byte} {k : Nat} {p : Host.Cell} (h : p ∈ Memory.ofBytes bs k) :
    k ≤ p.1 ∧ p.1 < k + bs.length ∧ p.2 ≠ unlisted := by
  induction bs generalizing k with
  | nil => simp [Memory.ofBytes] at h
  | cons b bs ih =>
    simp only [Memory.ofBytes] at h
    split at h
    · obtain ⟨h1, h2, h3⟩ := ih h
      exact ⟨by omega, by simp only [List.length_cons]; omega, h3⟩
    · rename_i hb
      rcases List.mem_cons.1 h with rfl | h
      · exact ⟨le_refl _, by simp, hb⟩
      · obtain ⟨h1, h2, h3⟩ := ih h
        exact ⟨by omega, by simp only [List.length_cons]; omega, h3⟩

/-- A laid-out list of bytes is canonical. -/
theorem Memory.wf_ofBytes (bs : List Byte) (k : Nat) : Memory.wf (Memory.ofBytes bs k) := by
  refine ⟨?_, fun p hp => (Memory.mem_ofBytes hp).2.2⟩
  induction bs generalizing k with
  | nil => simp [Memory.ofBytes]
  | cons b bs ih =>
    simp only [Memory.ofBytes]
    split
    · exact ih _
    · refine List.pairwise_cons.2 ⟨fun p hp => ?_, ih _⟩
      have := (Memory.mem_ofBytes hp).1
      simp only; omega

/-- Reading a laid-out list of bytes gives the byte at that place. -/
theorem Memory.read_ofBytes (bs : List Byte) (k i : Nat) :
    Memory.read (Memory.ofBytes bs k) (k + i) = bs.getD i unlisted := by
  induction bs generalizing k i with
  | nil => simp [Memory.ofBytes, Memory.read]
  | cons b bs ih =>
    have hlow : Memory.read (Memory.ofBytes bs (k + 1)) k = unlisted :=
      Memory.read_of_lt fun p hp => (Memory.mem_ofBytes hp).1
    simp only [Memory.ofBytes]
    cases i with
    | zero =>
      split
      · rename_i hb; simpa [hb] using hlow
      · simp [Memory.read]
    | succ i =>
      have hi : k + (i + 1) = (k + 1) + i := by omega
      split
      · rw [hi]; simpa using ih (k + 1) i
      · simp only [Memory.read]
        rw [if_neg (by omega), hi]
        simpa using ih (k + 1) i

/-- A list of bytes that all read as unlisted lays out as the empty memory. -/
theorem Memory.ofBytes_replicate (n k : Nat) : Memory.ofBytes (List.replicate n unlisted) k = [] := by
  induction n generalizing k with
  | zero => rfl
  | succ n ih => simp [List.replicate_succ, Memory.ofBytes, ih]

/-- The canonical form is canonical: two canonical memories that read alike are the same data. -/
theorem Memory.eq_of_read {m₁ m₂ : Memory} (h₁ : Memory.wf m₁) (h₂ : Memory.wf m₂)
    (h : ∀ k, Memory.read m₁ k = Memory.read m₂ k) : m₁ = m₂ := by
  induction m₁ generalizing m₂ with
  | nil =>
    cases m₂ with
    | nil => rfl
    | cons c m₂ =>
      have := h c.1
      simp only [Memory.read, if_true] at this
      exact absurd this.symm (h₂.2 c (List.mem_cons_self ..))
  | cons c m₁ ih =>
    obtain ⟨j, b⟩ := c
    have hb : b ≠ unlisted := h₁.2 (j, b) (List.mem_cons_self ..)
    have lt₁ := Memory.lt_of_mem_tail h₁
    cases m₂ with
    | nil =>
      have := h j
      simp only [Memory.read, if_true] at this
      exact absurd this hb
    | cons c' m₂ =>
      obtain ⟨j', b'⟩ := c'
      have hb' : b' ≠ unlisted := h₂.2 (j', b') (List.mem_cons_self ..)
      have lt₂ := Memory.lt_of_mem_tail h₂
      have hjj : j = j' := by
        rcases lt_trichotomy j j' with hlt | heq | hgt
        · have h1 := h j
          rw [Memory.read_of_lt (m := (j', b') :: m₂)] at h1
          · simp only [Memory.read, if_true] at h1; exact absurd h1 hb
          · intro p hp
            rcases List.mem_cons.1 hp with rfl | hp
            · exact hlt
            · exact lt_trans hlt (lt₂ p hp)
        · exact heq
        · have h1 := h j'
          rw [Memory.read_of_lt (m := (j, b) :: m₁)] at h1
          · simp only [Memory.read, if_true] at h1; exact absurd h1.symm hb'
          · intro p hp
            rcases List.mem_cons.1 hp with rfl | hp
            · exact hgt
            · exact lt_trans hgt (lt₁ p hp)
      subst hjj
      have hbb : b = b' := by simpa [Memory.read] using h j
      subst hbb
      congr 1
      refine ih (Memory.wf_tail h₁) (Memory.wf_tail h₂) fun k => ?_
      have hk := h k
      by_cases hkj : j = k
      · subst hkj
        rw [Memory.read_of_lt lt₁, Memory.read_of_lt lt₂]
      · simpa [Memory.read, hkj] using hk

end Sys2Proof.Machine
end

