-- ==== Sys2Proof/Laws/State.lean ====
section
/-!
SUPPORT. One lemma per field per register update, true by `rfl`, so that no later proof unfolds a
record update; and the same for the flag updates.
-/

namespace Sys2Proof.Machine

/-! ### `State.withA` -/

@[simp] theorem State.withA_a (s : State) (v : Byte) : (s.withA v).a = v := rfl
@[simp] theorem State.withA_x (s : State) (v : Byte) : (s.withA v).x = s.x := rfl
@[simp] theorem State.withA_y (s : State) (v : Byte) : (s.withA v).y = s.y := rfl
@[simp] theorem State.withA_sp (s : State) (v : Byte) : (s.withA v).sp = s.sp := rfl
@[simp] theorem State.withA_pc (s : State) (v : Byte) : (s.withA v).pc = s.pc := rfl
@[simp] theorem State.withA_p (s : State) (v : Byte) : (s.withA v).p = s.p := rfl
@[simp] theorem State.withA_resetReq (s : State) (v : Byte) : (s.withA v).resetReq = s.resetReq := rfl
@[simp] theorem State.withA_nmiReq (s : State) (v : Byte) : (s.withA v).nmiReq = s.nmiReq := rfl
@[simp] theorem State.withA_irqReq (s : State) (v : Byte) : (s.withA v).irqReq = s.irqReq := rfl
@[simp] theorem State.withA_ram (s : State) (v : Byte) : (s.withA v).ram = s.ram := rfl
@[simp] theorem State.withA_ppu (s : State) (v : Byte) : (s.withA v).ppu = s.ppu := rfl
@[simp] theorem State.withA_prg (s : State) (v : Byte) : (s.withA v).prg = s.prg := rfl
@[simp] theorem State.withA_params (s : State) (v : Byte) : (s.withA v).params = s.params := rfl
@[simp] theorem State.withA_cycles (s : State) (v : Byte) : (s.withA v).cycles = s.cycles := rfl
@[simp] theorem State.withA_trace (s : State) (v : Byte) : (s.withA v).trace = s.trace := rfl

/-! ### `State.withX` -/

@[simp] theorem State.withX_a (s : State) (v : Byte) : (s.withX v).a = s.a := rfl
@[simp] theorem State.withX_x (s : State) (v : Byte) : (s.withX v).x = v := rfl
@[simp] theorem State.withX_y (s : State) (v : Byte) : (s.withX v).y = s.y := rfl
@[simp] theorem State.withX_sp (s : State) (v : Byte) : (s.withX v).sp = s.sp := rfl
@[simp] theorem State.withX_pc (s : State) (v : Byte) : (s.withX v).pc = s.pc := rfl
@[simp] theorem State.withX_p (s : State) (v : Byte) : (s.withX v).p = s.p := rfl
@[simp] theorem State.withX_resetReq (s : State) (v : Byte) : (s.withX v).resetReq = s.resetReq := rfl
@[simp] theorem State.withX_nmiReq (s : State) (v : Byte) : (s.withX v).nmiReq = s.nmiReq := rfl
@[simp] theorem State.withX_irqReq (s : State) (v : Byte) : (s.withX v).irqReq = s.irqReq := rfl
@[simp] theorem State.withX_ram (s : State) (v : Byte) : (s.withX v).ram = s.ram := rfl
@[simp] theorem State.withX_ppu (s : State) (v : Byte) : (s.withX v).ppu = s.ppu := rfl
@[simp] theorem State.withX_prg (s : State) (v : Byte) : (s.withX v).prg = s.prg := rfl
@[simp] theorem State.withX_params (s : State) (v : Byte) : (s.withX v).params = s.params := rfl
@[simp] theorem State.withX_cycles (s : State) (v : Byte) : (s.withX v).cycles = s.cycles := rfl
@[simp] theorem State.withX_trace (s : State) (v : Byte) : (s.withX v).trace = s.trace := rfl

/-! ### `State.withY` -/

@[simp] theorem State.withY_a (s : State) (v : Byte) : (s.withY v).a = s.a := rfl
@[simp] theorem State.withY_x (s : State) (v : Byte) : (s.withY v).x = s.x := rfl
@[simp] theorem State.withY_y (s : State) (v : Byte) : (s.withY v).y = v := rfl
@[simp] theorem State.withY_sp (s : State) (v : Byte) : (s.withY v).sp = s.sp := rfl
@[simp] theorem State.withY_pc (s : State) (v : Byte) : (s.withY v).pc = s.pc := rfl
@[simp] theorem State.withY_p (s : State) (v : Byte) : (s.withY v).p = s.p := rfl
@[simp] theorem State.withY_resetReq (s : State) (v : Byte) : (s.withY v).resetReq = s.resetReq := rfl
@[simp] theorem State.withY_nmiReq (s : State) (v : Byte) : (s.withY v).nmiReq = s.nmiReq := rfl
@[simp] theorem State.withY_irqReq (s : State) (v : Byte) : (s.withY v).irqReq = s.irqReq := rfl
@[simp] theorem State.withY_ram (s : State) (v : Byte) : (s.withY v).ram = s.ram := rfl
@[simp] theorem State.withY_ppu (s : State) (v : Byte) : (s.withY v).ppu = s.ppu := rfl
@[simp] theorem State.withY_prg (s : State) (v : Byte) : (s.withY v).prg = s.prg := rfl
@[simp] theorem State.withY_params (s : State) (v : Byte) : (s.withY v).params = s.params := rfl
@[simp] theorem State.withY_cycles (s : State) (v : Byte) : (s.withY v).cycles = s.cycles := rfl
@[simp] theorem State.withY_trace (s : State) (v : Byte) : (s.withY v).trace = s.trace := rfl

/-! ### `State.withSp` -/

@[simp] theorem State.withSp_a (s : State) (v : Byte) : (s.withSp v).a = s.a := rfl
@[simp] theorem State.withSp_x (s : State) (v : Byte) : (s.withSp v).x = s.x := rfl
@[simp] theorem State.withSp_y (s : State) (v : Byte) : (s.withSp v).y = s.y := rfl
@[simp] theorem State.withSp_sp (s : State) (v : Byte) : (s.withSp v).sp = v := rfl
@[simp] theorem State.withSp_pc (s : State) (v : Byte) : (s.withSp v).pc = s.pc := rfl
@[simp] theorem State.withSp_p (s : State) (v : Byte) : (s.withSp v).p = s.p := rfl
@[simp] theorem State.withSp_resetReq (s : State) (v : Byte) : (s.withSp v).resetReq = s.resetReq := rfl
@[simp] theorem State.withSp_nmiReq (s : State) (v : Byte) : (s.withSp v).nmiReq = s.nmiReq := rfl
@[simp] theorem State.withSp_irqReq (s : State) (v : Byte) : (s.withSp v).irqReq = s.irqReq := rfl
@[simp] theorem State.withSp_ram (s : State) (v : Byte) : (s.withSp v).ram = s.ram := rfl
@[simp] theorem State.withSp_ppu (s : State) (v : Byte) : (s.withSp v).ppu = s.ppu := rfl
@[simp] theorem State.withSp_prg (s : State) (v : Byte) : (s.withSp v).prg = s.prg := rfl
@[simp] theorem State.withSp_params (s : State) (v : Byte) : (s.withSp v).params = s.params := rfl
@[simp] theorem State.withSp_cycles (s : State) (v : Byte) : (s.withSp v).cycles = s.cycles := rfl
@[simp] theorem State.withSp_trace (s : State) (v : Byte) : (s.withSp v).trace = s.trace := rfl

/-! ### `State.withPc` -/

@[simp] theorem State.withPc_a (s : State) (w : Word) : (s.withPc w).a = s.a := rfl
@[simp] theorem State.withPc_x (s : State) (w : Word) : (s.withPc w).x = s.x := rfl
@[simp] theorem State.withPc_y (s : State) (w : Word) : (s.withPc w).y = s.y := rfl
@[simp] theorem State.withPc_sp (s : State) (w : Word) : (s.withPc w).sp = s.sp := rfl
@[simp] theorem State.withPc_pc (s : State) (w : Word) : (s.withPc w).pc = w := rfl
@[simp] theorem State.withPc_p (s : State) (w : Word) : (s.withPc w).p = s.p := rfl
@[simp] theorem State.withPc_resetReq (s : State) (w : Word) : (s.withPc w).resetReq = s.resetReq := rfl
@[simp] theorem State.withPc_nmiReq (s : State) (w : Word) : (s.withPc w).nmiReq = s.nmiReq := rfl
@[simp] theorem State.withPc_irqReq (s : State) (w : Word) : (s.withPc w).irqReq = s.irqReq := rfl
@[simp] theorem State.withPc_ram (s : State) (w : Word) : (s.withPc w).ram = s.ram := rfl
@[simp] theorem State.withPc_ppu (s : State) (w : Word) : (s.withPc w).ppu = s.ppu := rfl
@[simp] theorem State.withPc_prg (s : State) (w : Word) : (s.withPc w).prg = s.prg := rfl
@[simp] theorem State.withPc_params (s : State) (w : Word) : (s.withPc w).params = s.params := rfl
@[simp] theorem State.withPc_cycles (s : State) (w : Word) : (s.withPc w).cycles = s.cycles := rfl
@[simp] theorem State.withPc_trace (s : State) (w : Word) : (s.withPc w).trace = s.trace := rfl

/-! ### `State.withFlags` -/

@[simp] theorem State.withFlags_a (s : State) (f : Flags) : (s.withFlags f).a = s.a := rfl
@[simp] theorem State.withFlags_x (s : State) (f : Flags) : (s.withFlags f).x = s.x := rfl
@[simp] theorem State.withFlags_y (s : State) (f : Flags) : (s.withFlags f).y = s.y := rfl
@[simp] theorem State.withFlags_sp (s : State) (f : Flags) : (s.withFlags f).sp = s.sp := rfl
@[simp] theorem State.withFlags_pc (s : State) (f : Flags) : (s.withFlags f).pc = s.pc := rfl
@[simp] theorem State.withFlags_p (s : State) (f : Flags) : (s.withFlags f).p = f := rfl
@[simp] theorem State.withFlags_resetReq (s : State) (f : Flags) : (s.withFlags f).resetReq = s.resetReq := rfl
@[simp] theorem State.withFlags_nmiReq (s : State) (f : Flags) : (s.withFlags f).nmiReq = s.nmiReq := rfl
@[simp] theorem State.withFlags_irqReq (s : State) (f : Flags) : (s.withFlags f).irqReq = s.irqReq := rfl
@[simp] theorem State.withFlags_ram (s : State) (f : Flags) : (s.withFlags f).ram = s.ram := rfl
@[simp] theorem State.withFlags_ppu (s : State) (f : Flags) : (s.withFlags f).ppu = s.ppu := rfl
@[simp] theorem State.withFlags_prg (s : State) (f : Flags) : (s.withFlags f).prg = s.prg := rfl
@[simp] theorem State.withFlags_params (s : State) (f : Flags) : (s.withFlags f).params = s.params := rfl
@[simp] theorem State.withFlags_cycles (s : State) (f : Flags) : (s.withFlags f).cycles = s.cycles := rfl
@[simp] theorem State.withFlags_trace (s : State) (f : Flags) : (s.withFlags f).trace = s.trace := rfl

/-! ### `State.setZN` -/

@[simp] theorem State.setZN_a (s : State) (r : Byte) : (s.setZN r).a = s.a := rfl
@[simp] theorem State.setZN_x (s : State) (r : Byte) : (s.setZN r).x = s.x := rfl
@[simp] theorem State.setZN_y (s : State) (r : Byte) : (s.setZN r).y = s.y := rfl
@[simp] theorem State.setZN_sp (s : State) (r : Byte) : (s.setZN r).sp = s.sp := rfl
@[simp] theorem State.setZN_pc (s : State) (r : Byte) : (s.setZN r).pc = s.pc := rfl
@[simp] theorem State.setZN_p (s : State) (r : Byte) : (s.setZN r).p = s.p.setZN r := rfl
@[simp] theorem State.setZN_resetReq (s : State) (r : Byte) : (s.setZN r).resetReq = s.resetReq := rfl
@[simp] theorem State.setZN_nmiReq (s : State) (r : Byte) : (s.setZN r).nmiReq = s.nmiReq := rfl
@[simp] theorem State.setZN_irqReq (s : State) (r : Byte) : (s.setZN r).irqReq = s.irqReq := rfl
@[simp] theorem State.setZN_ram (s : State) (r : Byte) : (s.setZN r).ram = s.ram := rfl
@[simp] theorem State.setZN_ppu (s : State) (r : Byte) : (s.setZN r).ppu = s.ppu := rfl
@[simp] theorem State.setZN_prg (s : State) (r : Byte) : (s.setZN r).prg = s.prg := rfl
@[simp] theorem State.setZN_params (s : State) (r : Byte) : (s.setZN r).params = s.params := rfl
@[simp] theorem State.setZN_cycles (s : State) (r : Byte) : (s.setZN r).cycles = s.cycles := rfl
@[simp] theorem State.setZN_trace (s : State) (r : Byte) : (s.setZN r).trace = s.trace := rfl

/-! ### `State.withCycles` -/

@[simp] theorem State.withCycles_a (s : State) (n : Cycles) : (s.withCycles n).a = s.a := rfl
@[simp] theorem State.withCycles_x (s : State) (n : Cycles) : (s.withCycles n).x = s.x := rfl
@[simp] theorem State.withCycles_y (s : State) (n : Cycles) : (s.withCycles n).y = s.y := rfl
@[simp] theorem State.withCycles_sp (s : State) (n : Cycles) : (s.withCycles n).sp = s.sp := rfl
@[simp] theorem State.withCycles_pc (s : State) (n : Cycles) : (s.withCycles n).pc = s.pc := rfl
@[simp] theorem State.withCycles_p (s : State) (n : Cycles) : (s.withCycles n).p = s.p := rfl
@[simp] theorem State.withCycles_resetReq (s : State) (n : Cycles) : (s.withCycles n).resetReq = s.resetReq := rfl
@[simp] theorem State.withCycles_nmiReq (s : State) (n : Cycles) : (s.withCycles n).nmiReq = s.nmiReq := rfl
@[simp] theorem State.withCycles_irqReq (s : State) (n : Cycles) : (s.withCycles n).irqReq = s.irqReq := rfl
@[simp] theorem State.withCycles_ram (s : State) (n : Cycles) : (s.withCycles n).ram = s.ram := rfl
@[simp] theorem State.withCycles_ppu (s : State) (n : Cycles) : (s.withCycles n).ppu = s.ppu := rfl
@[simp] theorem State.withCycles_prg (s : State) (n : Cycles) : (s.withCycles n).prg = s.prg := rfl
@[simp] theorem State.withCycles_params (s : State) (n : Cycles) : (s.withCycles n).params = s.params := rfl
@[simp] theorem State.withCycles_cycles (s : State) (n : Cycles) : (s.withCycles n).cycles = n := rfl
@[simp] theorem State.withCycles_trace (s : State) (n : Cycles) : (s.withCycles n).trace = s.trace := rfl

/-! ### `State.logged` -/

@[simp] theorem State.logged_a (s : State) (acc : Access) : (s.logged acc).a = s.a := rfl
@[simp] theorem State.logged_x (s : State) (acc : Access) : (s.logged acc).x = s.x := rfl
@[simp] theorem State.logged_y (s : State) (acc : Access) : (s.logged acc).y = s.y := rfl
@[simp] theorem State.logged_sp (s : State) (acc : Access) : (s.logged acc).sp = s.sp := rfl
@[simp] theorem State.logged_pc (s : State) (acc : Access) : (s.logged acc).pc = s.pc := rfl
@[simp] theorem State.logged_p (s : State) (acc : Access) : (s.logged acc).p = s.p := rfl
@[simp] theorem State.logged_resetReq (s : State) (acc : Access) : (s.logged acc).resetReq = s.resetReq := rfl
@[simp] theorem State.logged_nmiReq (s : State) (acc : Access) : (s.logged acc).nmiReq = s.nmiReq := rfl
@[simp] theorem State.logged_irqReq (s : State) (acc : Access) : (s.logged acc).irqReq = s.irqReq := rfl
@[simp] theorem State.logged_ram (s : State) (acc : Access) : (s.logged acc).ram = s.ram := rfl
@[simp] theorem State.logged_ppu (s : State) (acc : Access) : (s.logged acc).ppu = s.ppu := rfl
@[simp] theorem State.logged_prg (s : State) (acc : Access) : (s.logged acc).prg = s.prg := rfl
@[simp] theorem State.logged_params (s : State) (acc : Access) : (s.logged acc).params = s.params := rfl
@[simp] theorem State.logged_cycles (s : State) (acc : Access) : (s.logged acc).cycles = s.cycles := rfl
@[simp] theorem State.logged_trace (s : State) (acc : Access) : (s.logged acc).trace = s.trace ++ [acc] := rfl

/-! ### `Flags.setZN`, `Flags.afterShift`, `Flags.afterAdd` -/

@[simp] theorem Flags.setZN_n (f : Flags) (r : Byte) : (f.setZN r).n = bit r 7 := rfl
@[simp] theorem Flags.setZN_v (f : Flags) (r : Byte) : (f.setZN r).v = f.v := rfl
@[simp] theorem Flags.setZN_b (f : Flags) (r : Byte) : (f.setZN r).b = f.b := rfl
@[simp] theorem Flags.setZN_d (f : Flags) (r : Byte) : (f.setZN r).d = f.d := rfl
@[simp] theorem Flags.setZN_i (f : Flags) (r : Byte) : (f.setZN r).i = f.i := rfl
@[simp] theorem Flags.setZN_z (f : Flags) (r : Byte) : (f.setZN r).z = (r == 0x00#8) := rfl
@[simp] theorem Flags.setZN_c (f : Flags) (r : Byte) : (f.setZN r).c = f.c := rfl
@[simp] theorem Flags.afterShift_n (f : Flags) (out : Bool) (r : Byte) : (f.afterShift out r).n = bit r 7 := rfl
@[simp] theorem Flags.afterShift_v (f : Flags) (out : Bool) (r : Byte) : (f.afterShift out r).v = f.v := rfl
@[simp] theorem Flags.afterShift_b (f : Flags) (out : Bool) (r : Byte) : (f.afterShift out r).b = f.b := rfl
@[simp] theorem Flags.afterShift_d (f : Flags) (out : Bool) (r : Byte) : (f.afterShift out r).d = f.d := rfl
@[simp] theorem Flags.afterShift_i (f : Flags) (out : Bool) (r : Byte) : (f.afterShift out r).i = f.i := rfl
@[simp] theorem Flags.afterShift_z (f : Flags) (out : Bool) (r : Byte) : (f.afterShift out r).z = (r == 0x00#8) := rfl
@[simp] theorem Flags.afterShift_c (f : Flags) (out : Bool) (r : Byte) : (f.afterShift out r).c = out := rfl
@[simp] theorem Flags.afterAdd_n (f : Flags) (a m : Byte) : (f.afterAdd a m).n = bit (addResult a m f.c) 7 := rfl
@[simp] theorem Flags.afterAdd_v (f : Flags) (a m : Byte) : (f.afterAdd a m).v = addOverflow a m f.c := rfl
@[simp] theorem Flags.afterAdd_b (f : Flags) (a m : Byte) : (f.afterAdd a m).b = f.b := rfl
@[simp] theorem Flags.afterAdd_d (f : Flags) (a m : Byte) : (f.afterAdd a m).d = f.d := rfl
@[simp] theorem Flags.afterAdd_i (f : Flags) (a m : Byte) : (f.afterAdd a m).i = f.i := rfl
@[simp] theorem Flags.afterAdd_z (f : Flags) (a m : Byte) : (f.afterAdd a m).z = (addResult a m f.c == 0x00#8) := rfl
@[simp] theorem Flags.afterAdd_c (f : Flags) (a m : Byte) : (f.afterAdd a m).c = addCarry a m f.c := rfl

end Sys2Proof.Machine
end

