-- ==== Sys2Proof/Laws/Bus.lean ====
section
/-!
SUPPORT. The laws of the bus, the operand accesses and the stack: what each shared operation does,
said once (a read after a write, frames, and that the invariant is kept).
-/

namespace Sys2Proof.Machine

/-! ### Register updates do not change what the bus reads -/

@[simp] theorem State.withA_peek (s : State) (v : Byte) (b : Word) : (s.withA v).peek b = s.peek b := rfl
@[simp] theorem State.withX_peek (s : State) (v : Byte) (b : Word) : (s.withX v).peek b = s.peek b := rfl
@[simp] theorem State.withY_peek (s : State) (v : Byte) (b : Word) : (s.withY v).peek b = s.peek b := rfl
@[simp] theorem State.withSp_peek (s : State) (v : Byte) (b : Word) : (s.withSp v).peek b = s.peek b := rfl
@[simp] theorem State.withPc_peek (s : State) (w : Word) (b : Word) : (s.withPc w).peek b = s.peek b := rfl
@[simp] theorem State.withFlags_peek (s : State) (f : Flags) (b : Word) : (s.withFlags f).peek b = s.peek b := rfl
@[simp] theorem State.setZN_peek (s : State) (r : Byte) (b : Word) : (s.setZN r).peek b = s.peek b := rfl
@[simp] theorem State.withCycles_peek (s : State) (n : Cycles) (b : Word) : (s.withCycles n).peek b = s.peek b := rfl
@[simp] theorem State.logged_peek (s : State) (acc : Access) (b : Word) : (s.logged acc).peek b = s.peek b := rfl

/-! ### A bus write changes no register, flag, latch, PRG byte or parameter -/

@[simp] theorem State.poke_a (s : State) (a : Word) (v : Byte) : (s.poke a v).a = s.a := by
  unfold State.poke; split <;> rfl
@[simp] theorem State.poke_x (s : State) (a : Word) (v : Byte) : (s.poke a v).x = s.x := by
  unfold State.poke; split <;> rfl
@[simp] theorem State.poke_y (s : State) (a : Word) (v : Byte) : (s.poke a v).y = s.y := by
  unfold State.poke; split <;> rfl
@[simp] theorem State.poke_sp (s : State) (a : Word) (v : Byte) : (s.poke a v).sp = s.sp := by
  unfold State.poke; split <;> rfl
@[simp] theorem State.poke_pc (s : State) (a : Word) (v : Byte) : (s.poke a v).pc = s.pc := by
  unfold State.poke; split <;> rfl
@[simp] theorem State.poke_p (s : State) (a : Word) (v : Byte) : (s.poke a v).p = s.p := by
  unfold State.poke; split <;> rfl
@[simp] theorem State.poke_resetReq (s : State) (a : Word) (v : Byte) : (s.poke a v).resetReq = s.resetReq := by
  unfold State.poke; split <;> rfl
@[simp] theorem State.poke_nmiReq (s : State) (a : Word) (v : Byte) : (s.poke a v).nmiReq = s.nmiReq := by
  unfold State.poke; split <;> rfl
@[simp] theorem State.poke_irqReq (s : State) (a : Word) (v : Byte) : (s.poke a v).irqReq = s.irqReq := by
  unfold State.poke; split <;> rfl
@[simp] theorem State.poke_prg (s : State) (a : Word) (v : Byte) : (s.poke a v).prg = s.prg := by
  unfold State.poke; split <;> rfl
@[simp] theorem State.poke_params (s : State) (a : Word) (v : Byte) : (s.poke a v).params = s.params := by
  unfold State.poke; split <;> rfl
@[simp] theorem State.poke_cycles (s : State) (a : Word) (v : Byte) : (s.poke a v).cycles = s.cycles := by
  unfold State.poke; split <;> rfl
@[simp] theorem State.poke_trace (s : State) (a : Word) (v : Byte) : (s.poke a v).trace = s.trace := by
  unfold State.poke; split <;> rfl

/-! ### Indices stay inside their stores -/

theorem ramIndex_lt (a : Word) : ramIndex a < ramSize := by
  unfold ramIndex ramSize
  have : (a &&& 0x07FF#16).toNat ≤ (0x07FF#16).toNat := by
    rw [BitVec.toNat_and]; exact Nat.and_le_right
  simp only [BitVec.toNat_ofNat] at this
  omega

theorem ppuIndex_lt (a : Word) : ppuIndex a < 8 := by
  unfold ppuIndex
  have : (a &&& 0x0007#16).toNat ≤ (0x0007#16).toNat := by
    rw [BitVec.toNat_and]; exact Nat.and_le_right
  simp only [BitVec.toNat_ofNat] at this
  omega

/-! ### A read after a write -/

theorem PpuRegs.get_set (r : PpuRegs) {i k : Nat} (hi : i < 8) (hk : k < 8) (v : Byte) :
    (r.set i v).get k = if i = k then v else r.get k := by
  interval_cases i <;> interval_cases k <;> rfl

/-- A bus read after a bus write: the value written where the two addresses name the same writable
cell, and the earlier value everywhere else (R52 to R54, R59). -/
theorem State.peek_poke (s : State) (h : Memory.wf s.ram) (a b : Word) (v : Byte) :
    (s.poke a v).peek b = if sameCell a b then v else s.peek b := by
  unfold State.poke sameCell
  cases ha : regionOf a <;> cases hb : regionOf b <;> simp only [State.peek, hb]
    <;> try simp only [Bool.false_eq_true, if_false]
  · by_cases he : ramIndex a = ramIndex b
    · simp [← he, Memory.read_write_same h]
    · simp [he, Memory.read_write_other _ (Ne.symm he)]
  · rw [PpuRegs.get_set _ (ppuIndex_lt a) (ppuIndex_lt b)]
    simp

/-- A bus write keeps the invariant. -/
theorem State.Inv.poke {s : State} (h : s.Inv) (a : Word) (v : Byte) : (s.poke a v).Inv := by
  obtain ⟨h1, h2, h3, h4, h5⟩ := h
  unfold State.poke
  cases regionOf a
  · exact ⟨Memory.wf_write h1 _ _, Memory.below_write h2 (ramIndex_lt a) _, h3, h4, h5⟩
  all_goals exact ⟨h1, h2, h3, h4, h5⟩

/-! ### `memRead`, `memRead16`, `memWrite` -/

@[simp] theorem memRead_fst (a : Word) (s : State) : (memRead a s).1 = s.peek a := rfl

@[simp] theorem memRead_snd (a : Word) (s : State) :
    (memRead a s).2 = s.logged (.read a (s.peek a)) := rfl

/-- A 16-bit read: the little-endian word, and two reads in the trace, low byte first (R61). -/
theorem memRead16_eq (a : Word) (s : State) :
    memRead16 a s = (join (s.peek (a + 1)) (s.peek a),
      (s.logged (.read a (s.peek a))).logged (.read (a + 1) (s.peek (a + 1)))) := rfl

@[simp] theorem memWrite_a (a : Word) (v : Byte) (s : State) : (memWrite a v s).a = s.a := by
  simp [memWrite]
@[simp] theorem memWrite_x (a : Word) (v : Byte) (s : State) : (memWrite a v s).x = s.x := by
  simp [memWrite]
@[simp] theorem memWrite_y (a : Word) (v : Byte) (s : State) : (memWrite a v s).y = s.y := by
  simp [memWrite]
@[simp] theorem memWrite_pc (a : Word) (v : Byte) (s : State) : (memWrite a v s).pc = s.pc := by
  simp [memWrite]
@[simp] theorem memWrite_p (a : Word) (v : Byte) (s : State) : (memWrite a v s).p = s.p := by
  simp [memWrite]
@[simp] theorem memWrite_resetReq (a : Word) (v : Byte) (s : State) : (memWrite a v s).resetReq = s.resetReq := by
  simp [memWrite]
@[simp] theorem memWrite_nmiReq (a : Word) (v : Byte) (s : State) : (memWrite a v s).nmiReq = s.nmiReq := by
  simp [memWrite]
@[simp] theorem memWrite_irqReq (a : Word) (v : Byte) (s : State) : (memWrite a v s).irqReq = s.irqReq := by
  simp [memWrite]
@[simp] theorem memWrite_prg (a : Word) (v : Byte) (s : State) : (memWrite a v s).prg = s.prg := by
  simp [memWrite]
@[simp] theorem memWrite_params (a : Word) (v : Byte) (s : State) : (memWrite a v s).params = s.params := by
  simp [memWrite]
@[simp] theorem memWrite_cycles (a : Word) (v : Byte) (s : State) : (memWrite a v s).cycles = s.cycles := by
  simp [memWrite]
@[simp] theorem memWrite_sp (a : Word) (v : Byte) (s : State) : (memWrite a v s).sp = s.sp := by
  simp [memWrite]
@[simp] theorem memWrite_trace (a : Word) (v : Byte) (s : State) :
    (memWrite a v s).trace = s.trace ++ [.write a v] := by
  simp [memWrite]

theorem memWrite_peek (s : State) (h : Memory.wf s.ram) (a b : Word) (v : Byte) :
    (memWrite a v s).peek b = if sameCell a b then v else s.peek b := by
  simp [memWrite, State.peek_poke s h]

theorem State.Inv.memWrite {s : State} (h : s.Inv) (a : Word) (v : Byte) : (memWrite a v s).Inv :=
  State.Inv.poke h a v

/-- A 16-bit write: the low byte at `a`, then the high byte at `a + 1`, and every other address as
before (R13). -/
theorem memWrite16_peek (s : State) (h : s.Inv) (a w b : Word) :
    (memWrite16 a w s).peek b =
      if sameCell (a + 1) b then hi w else if sameCell a b then lo w else s.peek b := by
  rw [memWrite16, memWrite_peek _ (State.Inv.memWrite h a (lo w)).1, memWrite_peek s h.1]

@[simp] theorem memWrite16_trace (a w : Word) (s : State) :
    (memWrite16 a w s).trace = s.trace ++ [.write a (lo w), .write (a + 1) (hi w)] := by
  simp [memWrite16]

theorem State.Inv.memWrite16 {s : State} (h : s.Inv) (a w : Word) : (memWrite16 a w s).Inv :=
  State.Inv.memWrite (State.Inv.memWrite h a (lo w)) (a + 1) (hi w)

/-! ### Operand accesses -/

/-- Reads for the trace change nothing but the trace. -/
theorem readAll_eq (as : List Word) (s : State) :
    readAll as s = { s with trace := s.trace ++ readsOf as s } := by
  induction as generalizing s with
  | nil => simp [readAll, readsOf]
  | cons a as ih =>
    have h : readAll (a :: as) s = readAll as (memRead a s).2 := rfl
    rw [h, ih]
    simp [readsOf, State.logged, State.peek]

/-- Everything a memory operand's read does (R119). -/
theorem readMem_eq (m : MemMode) (s : State) :
    readMem m s = (s.peek (ea m s), { s with trace := s.trace ++ memReads m s }) := by
  unfold readMem readPointer memRead
  rw [readAll_eq]
  simp [State.logged, memReads, State.peek]

/-- Everything a read-class operand's access does (R108, R119). -/
theorem readOperand_eq (o : ReadMode) (s : State) :
    readOperand o s = (operandValue o s, { s with trace := s.trace ++ operandReads o s }) := by
  cases o with
  | imm v => simp [readOperand, operandValue, operandReads]
  | mem m => exact readMem_eq m s

/-- Everything a store's access does: the pointer reads, then one write (R119). -/
theorem writeMem_eq (m : MemMode) (v : Byte) (s : State) :
    writeMem m v s =
      memWrite (ea m s) v { s with trace := s.trace ++ readsOf (pointerReads m s) s } := by
  unfold writeMem readPointer
  rw [readAll_eq]

/-- Everything a read-modify-write access does: one read, then one write (R119). -/
theorem modifyMem_eq (m : MemMode) (f : Byte → Byte) (s : State) :
    modifyMem m f s = (s.peek (ea m s),
      memWrite (ea m s) (f (s.peek (ea m s))) { s with trace := s.trace ++ memReads m s }) := by
  simp [modifyMem, readMem_eq]

/-! ### The stack -/

@[simp] theorem push_a (v : Byte) (s : State) : (push v s).a = s.a := by simp [push]
@[simp] theorem push_x (v : Byte) (s : State) : (push v s).x = s.x := by simp [push]
@[simp] theorem push_y (v : Byte) (s : State) : (push v s).y = s.y := by simp [push]
@[simp] theorem push_pc (v : Byte) (s : State) : (push v s).pc = s.pc := by simp [push]
@[simp] theorem push_p (v : Byte) (s : State) : (push v s).p = s.p := by simp [push]
@[simp] theorem push_resetReq (v : Byte) (s : State) : (push v s).resetReq = s.resetReq := by simp [push]
@[simp] theorem push_nmiReq (v : Byte) (s : State) : (push v s).nmiReq = s.nmiReq := by simp [push]
@[simp] theorem push_irqReq (v : Byte) (s : State) : (push v s).irqReq = s.irqReq := by simp [push]
@[simp] theorem push_prg (v : Byte) (s : State) : (push v s).prg = s.prg := by simp [push]
@[simp] theorem push_params (v : Byte) (s : State) : (push v s).params = s.params := by simp [push]
@[simp] theorem push_cycles (v : Byte) (s : State) : (push v s).cycles = s.cycles := by simp [push]
@[simp] theorem push_sp (v : Byte) (s : State) : (push v s).sp = s.sp - 1 := by simp [push]
@[simp] theorem push_trace (v : Byte) (s : State) :
    (push v s).trace = s.trace ++ [.write (stackAddr s.sp) v] := by simp [push]

theorem push_peek (s : State) (h : Memory.wf s.ram) (v : Byte) (b : Word) :
    (push v s).peek b = if sameCell (stackAddr s.sp) b then v else s.peek b := by
  simp [push, memWrite_peek s h]

theorem State.Inv.push {s : State} (h : s.Inv) (v : Byte) : (push v s).Inv :=
  State.Inv.memWrite h _ _

/-- Everything a pop does: SP rises, the byte there is read (R64). -/
theorem pop_eq (s : State) :
    pop s = (s.peek (stackAddr (s.sp + 1)),
      (s.withSp (s.sp + 1)).logged (.read (stackAddr (s.sp + 1)) (s.peek (stackAddr (s.sp + 1))))) := rfl

/-- Everything a 16-bit pop does: low byte first (R64). -/
theorem pop16_eq (s : State) :
    pop16 s = (join (s.peek (stackAddr (s.sp + 1 + 1))) (s.peek (stackAddr (s.sp + 1))),
      (((s.withSp (s.sp + 1)).logged
          (.read (stackAddr (s.sp + 1)) (s.peek (stackAddr (s.sp + 1))))).withSp (s.sp + 1 + 1)).logged
        (.read (stackAddr (s.sp + 1 + 1)) (s.peek (stackAddr (s.sp + 1 + 1))))) := rfl

/-- Entering a handler keeps the invariant. -/
theorem State.Inv.enterHandler {s : State} (h : s.Inv) (vector ret : Word) (b : Bool) :
    (enterHandler vector ret b s).Inv :=
  State.Inv.push (State.Inv.push (State.Inv.push h (hi ret)) (lo ret)) (s.p.ppush b)

/-- Everything entering a handler does to the registers: SP falls by three, I is set, PC is the
word at the vector as the bus reads it after the pushes (R231, R258). -/
theorem enterHandler_registers (vector ret : Word) (b : Bool) (s : State) :
    (enterHandler vector ret b s).a = s.a ∧ (enterHandler vector ret b s).x = s.x ∧
    (enterHandler vector ret b s).y = s.y ∧ (enterHandler vector ret b s).sp = s.sp - 1 - 1 - 1 ∧
    (enterHandler vector ret b s).p = { s.p with i := true } := by
  simp [enterHandler, push16, memRead16]

end Sys2Proof.Machine
end

