-- ==== Sys2Proof/Laws/Environment.lean ====
section
/-!
SUPPORT. The laws of interleavings: a run in two parts, and where a run to `E` ends.
-/

namespace Sys2Proof.Machine

@[simp] theorem sysRun_nil (s : State) : sysRun [] s = some s := rfl

@[simp] theorem sysRun_cons (e : Event) (es : List Event) (s : State) :
    sysRun (e :: es) s = (sysStep e s).bind (sysRun es) := rfl

/-- A run of two interleavings one after the other. -/
theorem sysRun_append (es fs : List Event) (s : State) :
    sysRun (es ++ fs) s = (sysRun es s).bind (sysRun fs) := by
  induction es generalizing s with
  | nil => rfl
  | cons e es ih =>
    simp only [List.cons_append, sysRun_cons, Option.bind_assoc]
    exact congrArg _ (funext ih)

/-- A state `atEnd` accepts ends the run there, with no event consumed (R272). -/
theorem runToEnd_of_atEnd {e : Word} {s : State} (h : atEnd e s = true) (es : List Event) :
    runToEnd e es s = some (s, es) := by
  cases es <;> simp [runToEnd, h]

/-- A state `atEnd` does not accept passes the run on to the next event (R272). -/
theorem runToEnd_cons {e : Word} {s : State} (h : atEnd e s = false) (v : Event) (es : List Event) :
    runToEnd e (v :: es) s = (sysStep v s).bind (runToEnd e es) := by
  simp [runToEnd, h]

/-- An environment step changes no register, no flag, no PRG byte and no parameter, and clears no
latch (R35, R271). -/
theorem envStep_frame {a : EnvAction} {s t : State} (h : envStep a s = some t) :
    t = { s with ram := t.ram, ppu := t.ppu, resetReq := t.resetReq, nmiReq := t.nmiReq
                 irqReq := t.irqReq } ∧
    (s.resetReq = true → t.resetReq = true) ∧ (s.nmiReq = true → t.nmiReq = true) ∧
    (s.irqReq = true → t.irqReq = true) := by
  cases a with
  | ramWrite k v =>
    simp only [envStep] at h
    split at h
    · cases h; exact ⟨rfl, id, id, id⟩
    · cases h
  | _ => cases h; exact ⟨rfl, by simp, by simp, by simp⟩

end Sys2Proof.Machine
end

