-- ==== Sys2Proof/Laws/PerInstr.lean ====
section
/-!
SUPPORT. Facts about every instruction as syntax, one lemma per constructor.
-/

open Sys2Proof

/-! ### A well-formed instruction encodes in as many bytes as R81 gives it. -/

/-- A well-formed instruction encodes in as many bytes as R81 gives it. -/
def Sys2Proof.Laws.EncodeSize.Statement (i : Instr) : Prop :=
  i.wellFormed = true → (encode i).length = i.size

theorem Sys2Proof.Laws.EncodeSize.lda (o : ReadMode) : Sys2Proof.Laws.EncodeSize.Statement (.lda o) := by
  intro h
  rcases o with _ | ⟨_ | _ | _ | _ | _ | _ | _ | _⟩ <;> first | rfl | exact absurd h Bool.false_ne_true
theorem Sys2Proof.Laws.EncodeSize.ldx (o : ReadMode) : Sys2Proof.Laws.EncodeSize.Statement (.ldx o) := by
  intro h
  rcases o with _ | ⟨_ | _ | _ | _ | _ | _ | _ | _⟩ <;> first | rfl | exact absurd h Bool.false_ne_true
theorem Sys2Proof.Laws.EncodeSize.ldy (o : ReadMode) : Sys2Proof.Laws.EncodeSize.Statement (.ldy o) := by
  intro h
  rcases o with _ | ⟨_ | _ | _ | _ | _ | _ | _ | _⟩ <;> first | rfl | exact absurd h Bool.false_ne_true
theorem Sys2Proof.Laws.EncodeSize.sta (m : MemMode) : Sys2Proof.Laws.EncodeSize.Statement (.sta m) := by
  intro h
  cases m <;> first | rfl | exact absurd h Bool.false_ne_true
theorem Sys2Proof.Laws.EncodeSize.stx (m : MemMode) : Sys2Proof.Laws.EncodeSize.Statement (.stx m) := by
  intro h
  cases m <;> first | rfl | exact absurd h Bool.false_ne_true
theorem Sys2Proof.Laws.EncodeSize.sty (m : MemMode) : Sys2Proof.Laws.EncodeSize.Statement (.sty m) := by
  intro h
  cases m <;> first | rfl | exact absurd h Bool.false_ne_true
theorem Sys2Proof.Laws.EncodeSize.tax : Sys2Proof.Laws.EncodeSize.Statement .tax := fun _ => rfl
theorem Sys2Proof.Laws.EncodeSize.tay : Sys2Proof.Laws.EncodeSize.Statement .tay := fun _ => rfl
theorem Sys2Proof.Laws.EncodeSize.txa : Sys2Proof.Laws.EncodeSize.Statement .txa := fun _ => rfl
theorem Sys2Proof.Laws.EncodeSize.tya : Sys2Proof.Laws.EncodeSize.Statement .tya := fun _ => rfl
theorem Sys2Proof.Laws.EncodeSize.tsx : Sys2Proof.Laws.EncodeSize.Statement .tsx := fun _ => rfl
theorem Sys2Proof.Laws.EncodeSize.txs : Sys2Proof.Laws.EncodeSize.Statement .txs := fun _ => rfl
theorem Sys2Proof.Laws.EncodeSize.adc (o : ReadMode) : Sys2Proof.Laws.EncodeSize.Statement (.adc o) := by
  intro h
  rcases o with _ | ⟨_ | _ | _ | _ | _ | _ | _ | _⟩ <;> first | rfl | exact absurd h Bool.false_ne_true
theorem Sys2Proof.Laws.EncodeSize.sbc (o : ReadMode) : Sys2Proof.Laws.EncodeSize.Statement (.sbc o) := by
  intro h
  rcases o with _ | ⟨_ | _ | _ | _ | _ | _ | _ | _⟩ <;> first | rfl | exact absurd h Bool.false_ne_true
theorem Sys2Proof.Laws.EncodeSize.and (o : ReadMode) : Sys2Proof.Laws.EncodeSize.Statement (.and o) := by
  intro h
  rcases o with _ | ⟨_ | _ | _ | _ | _ | _ | _ | _⟩ <;> first | rfl | exact absurd h Bool.false_ne_true
theorem Sys2Proof.Laws.EncodeSize.ora (o : ReadMode) : Sys2Proof.Laws.EncodeSize.Statement (.ora o) := by
  intro h
  rcases o with _ | ⟨_ | _ | _ | _ | _ | _ | _ | _⟩ <;> first | rfl | exact absurd h Bool.false_ne_true
theorem Sys2Proof.Laws.EncodeSize.eor (o : ReadMode) : Sys2Proof.Laws.EncodeSize.Statement (.eor o) := by
  intro h
  rcases o with _ | ⟨_ | _ | _ | _ | _ | _ | _ | _⟩ <;> first | rfl | exact absurd h Bool.false_ne_true
theorem Sys2Proof.Laws.EncodeSize.bit (m : MemMode) : Sys2Proof.Laws.EncodeSize.Statement (.bit m) := by
  intro h
  cases m <;> first | rfl | exact absurd h Bool.false_ne_true
theorem Sys2Proof.Laws.EncodeSize.cmp (o : ReadMode) : Sys2Proof.Laws.EncodeSize.Statement (.cmp o) := by
  intro h
  rcases o with _ | ⟨_ | _ | _ | _ | _ | _ | _ | _⟩ <;> first | rfl | exact absurd h Bool.false_ne_true
theorem Sys2Proof.Laws.EncodeSize.cpx (o : ReadMode) : Sys2Proof.Laws.EncodeSize.Statement (.cpx o) := by
  intro h
  rcases o with _ | ⟨_ | _ | _ | _ | _ | _ | _ | _⟩ <;> first | rfl | exact absurd h Bool.false_ne_true
theorem Sys2Proof.Laws.EncodeSize.cpy (o : ReadMode) : Sys2Proof.Laws.EncodeSize.Statement (.cpy o) := by
  intro h
  rcases o with _ | ⟨_ | _ | _ | _ | _ | _ | _ | _⟩ <;> first | rfl | exact absurd h Bool.false_ne_true
theorem Sys2Proof.Laws.EncodeSize.inc (m : MemMode) : Sys2Proof.Laws.EncodeSize.Statement (.inc m) := by
  intro h
  cases m <;> first | rfl | exact absurd h Bool.false_ne_true
theorem Sys2Proof.Laws.EncodeSize.dec (m : MemMode) : Sys2Proof.Laws.EncodeSize.Statement (.dec m) := by
  intro h
  cases m <;> first | rfl | exact absurd h Bool.false_ne_true
theorem Sys2Proof.Laws.EncodeSize.inx : Sys2Proof.Laws.EncodeSize.Statement .inx := fun _ => rfl
theorem Sys2Proof.Laws.EncodeSize.iny : Sys2Proof.Laws.EncodeSize.Statement .iny := fun _ => rfl
theorem Sys2Proof.Laws.EncodeSize.dex : Sys2Proof.Laws.EncodeSize.Statement .dex := fun _ => rfl
theorem Sys2Proof.Laws.EncodeSize.dey : Sys2Proof.Laws.EncodeSize.Statement .dey := fun _ => rfl
theorem Sys2Proof.Laws.EncodeSize.asl (o : ShiftMode) : Sys2Proof.Laws.EncodeSize.Statement (.asl o) := by
  intro h
  rcases o with _ | ⟨_ | _ | _ | _ | _ | _ | _ | _⟩ <;> first | rfl | exact absurd h Bool.false_ne_true
theorem Sys2Proof.Laws.EncodeSize.lsr (o : ShiftMode) : Sys2Proof.Laws.EncodeSize.Statement (.lsr o) := by
  intro h
  rcases o with _ | ⟨_ | _ | _ | _ | _ | _ | _ | _⟩ <;> first | rfl | exact absurd h Bool.false_ne_true
theorem Sys2Proof.Laws.EncodeSize.rol (o : ShiftMode) : Sys2Proof.Laws.EncodeSize.Statement (.rol o) := by
  intro h
  rcases o with _ | ⟨_ | _ | _ | _ | _ | _ | _ | _⟩ <;> first | rfl | exact absurd h Bool.false_ne_true
theorem Sys2Proof.Laws.EncodeSize.ror (o : ShiftMode) : Sys2Proof.Laws.EncodeSize.Statement (.ror o) := by
  intro h
  rcases o with _ | ⟨_ | _ | _ | _ | _ | _ | _ | _⟩ <;> first | rfl | exact absurd h Bool.false_ne_true
theorem Sys2Proof.Laws.EncodeSize.bpl (off : Byte) : Sys2Proof.Laws.EncodeSize.Statement (.bpl off) := fun _ => rfl
theorem Sys2Proof.Laws.EncodeSize.bmi (off : Byte) : Sys2Proof.Laws.EncodeSize.Statement (.bmi off) := fun _ => rfl
theorem Sys2Proof.Laws.EncodeSize.bvc (off : Byte) : Sys2Proof.Laws.EncodeSize.Statement (.bvc off) := fun _ => rfl
theorem Sys2Proof.Laws.EncodeSize.bvs (off : Byte) : Sys2Proof.Laws.EncodeSize.Statement (.bvs off) := fun _ => rfl
theorem Sys2Proof.Laws.EncodeSize.bcc (off : Byte) : Sys2Proof.Laws.EncodeSize.Statement (.bcc off) := fun _ => rfl
theorem Sys2Proof.Laws.EncodeSize.bcs (off : Byte) : Sys2Proof.Laws.EncodeSize.Statement (.bcs off) := fun _ => rfl
theorem Sys2Proof.Laws.EncodeSize.bne (off : Byte) : Sys2Proof.Laws.EncodeSize.Statement (.bne off) := fun _ => rfl
theorem Sys2Proof.Laws.EncodeSize.beq (off : Byte) : Sys2Proof.Laws.EncodeSize.Statement (.beq off) := fun _ => rfl
theorem Sys2Proof.Laws.EncodeSize.jmpAbs (target : Word) : Sys2Proof.Laws.EncodeSize.Statement (.jmpAbs target) := fun _ => rfl
theorem Sys2Proof.Laws.EncodeSize.jmpInd (ptr : Word) : Sys2Proof.Laws.EncodeSize.Statement (.jmpInd ptr) := fun _ => rfl
theorem Sys2Proof.Laws.EncodeSize.jsr (target : Word) : Sys2Proof.Laws.EncodeSize.Statement (.jsr target) := fun _ => rfl
theorem Sys2Proof.Laws.EncodeSize.rts : Sys2Proof.Laws.EncodeSize.Statement .rts := fun _ => rfl
theorem Sys2Proof.Laws.EncodeSize.pha : Sys2Proof.Laws.EncodeSize.Statement .pha := fun _ => rfl
theorem Sys2Proof.Laws.EncodeSize.php : Sys2Proof.Laws.EncodeSize.Statement .php := fun _ => rfl
theorem Sys2Proof.Laws.EncodeSize.pla : Sys2Proof.Laws.EncodeSize.Statement .pla := fun _ => rfl
theorem Sys2Proof.Laws.EncodeSize.plp : Sys2Proof.Laws.EncodeSize.Statement .plp := fun _ => rfl
theorem Sys2Proof.Laws.EncodeSize.clc : Sys2Proof.Laws.EncodeSize.Statement .clc := fun _ => rfl
theorem Sys2Proof.Laws.EncodeSize.sec : Sys2Proof.Laws.EncodeSize.Statement .sec := fun _ => rfl
theorem Sys2Proof.Laws.EncodeSize.cli : Sys2Proof.Laws.EncodeSize.Statement .cli := fun _ => rfl
theorem Sys2Proof.Laws.EncodeSize.sei : Sys2Proof.Laws.EncodeSize.Statement .sei := fun _ => rfl
theorem Sys2Proof.Laws.EncodeSize.cld : Sys2Proof.Laws.EncodeSize.Statement .cld := fun _ => rfl
theorem Sys2Proof.Laws.EncodeSize.sed : Sys2Proof.Laws.EncodeSize.Statement .sed := fun _ => rfl
theorem Sys2Proof.Laws.EncodeSize.clv : Sys2Proof.Laws.EncodeSize.Statement .clv := fun _ => rfl
theorem Sys2Proof.Laws.EncodeSize.brk (pad : Byte) : Sys2Proof.Laws.EncodeSize.Statement (.brk pad) := fun _ => rfl
theorem Sys2Proof.Laws.EncodeSize.rti : Sys2Proof.Laws.EncodeSize.Statement .rti := fun _ => rfl
theorem Sys2Proof.Laws.EncodeSize.nop : Sys2Proof.Laws.EncodeSize.Statement .nop := fun _ => rfl
theorem Sys2Proof.Laws.EncodeSize.undef (op : Byte) : Sys2Proof.Laws.EncodeSize.Statement (.undef op) := by
  intro h
  have h : undefinedBytes.contains op = true := h
  simp only [encode, Instr.opcode, h, if_true]; rfl

/-! ### The table has an opcode byte for exactly the well-formed instructions (R84, R85). -/

/-- The table has an opcode byte for exactly the well-formed instructions (R84, R85). -/
def Sys2Proof.Laws.OpcodeKnown.Statement (i : Instr) : Prop :=
  i.wellFormed = i.opcode.isSome

theorem Sys2Proof.Laws.OpcodeKnown.lda (o : ReadMode) : Sys2Proof.Laws.OpcodeKnown.Statement (.lda o) := by
  rcases o with _ | ⟨_ | _ | _ | _ | _ | _ | _ | _⟩ <;> rfl
theorem Sys2Proof.Laws.OpcodeKnown.ldx (o : ReadMode) : Sys2Proof.Laws.OpcodeKnown.Statement (.ldx o) := by
  rcases o with _ | ⟨_ | _ | _ | _ | _ | _ | _ | _⟩ <;> rfl
theorem Sys2Proof.Laws.OpcodeKnown.ldy (o : ReadMode) : Sys2Proof.Laws.OpcodeKnown.Statement (.ldy o) := by
  rcases o with _ | ⟨_ | _ | _ | _ | _ | _ | _ | _⟩ <;> rfl
theorem Sys2Proof.Laws.OpcodeKnown.sta (m : MemMode) : Sys2Proof.Laws.OpcodeKnown.Statement (.sta m) := by
  cases m <;> rfl
theorem Sys2Proof.Laws.OpcodeKnown.stx (m : MemMode) : Sys2Proof.Laws.OpcodeKnown.Statement (.stx m) := by
  cases m <;> rfl
theorem Sys2Proof.Laws.OpcodeKnown.sty (m : MemMode) : Sys2Proof.Laws.OpcodeKnown.Statement (.sty m) := by
  cases m <;> rfl
theorem Sys2Proof.Laws.OpcodeKnown.tax : Sys2Proof.Laws.OpcodeKnown.Statement .tax := rfl
theorem Sys2Proof.Laws.OpcodeKnown.tay : Sys2Proof.Laws.OpcodeKnown.Statement .tay := rfl
theorem Sys2Proof.Laws.OpcodeKnown.txa : Sys2Proof.Laws.OpcodeKnown.Statement .txa := rfl
theorem Sys2Proof.Laws.OpcodeKnown.tya : Sys2Proof.Laws.OpcodeKnown.Statement .tya := rfl
theorem Sys2Proof.Laws.OpcodeKnown.tsx : Sys2Proof.Laws.OpcodeKnown.Statement .tsx := rfl
theorem Sys2Proof.Laws.OpcodeKnown.txs : Sys2Proof.Laws.OpcodeKnown.Statement .txs := rfl
theorem Sys2Proof.Laws.OpcodeKnown.adc (o : ReadMode) : Sys2Proof.Laws.OpcodeKnown.Statement (.adc o) := by
  rcases o with _ | ⟨_ | _ | _ | _ | _ | _ | _ | _⟩ <;> rfl
theorem Sys2Proof.Laws.OpcodeKnown.sbc (o : ReadMode) : Sys2Proof.Laws.OpcodeKnown.Statement (.sbc o) := by
  rcases o with _ | ⟨_ | _ | _ | _ | _ | _ | _ | _⟩ <;> rfl
theorem Sys2Proof.Laws.OpcodeKnown.and (o : ReadMode) : Sys2Proof.Laws.OpcodeKnown.Statement (.and o) := by
  rcases o with _ | ⟨_ | _ | _ | _ | _ | _ | _ | _⟩ <;> rfl
theorem Sys2Proof.Laws.OpcodeKnown.ora (o : ReadMode) : Sys2Proof.Laws.OpcodeKnown.Statement (.ora o) := by
  rcases o with _ | ⟨_ | _ | _ | _ | _ | _ | _ | _⟩ <;> rfl
theorem Sys2Proof.Laws.OpcodeKnown.eor (o : ReadMode) : Sys2Proof.Laws.OpcodeKnown.Statement (.eor o) := by
  rcases o with _ | ⟨_ | _ | _ | _ | _ | _ | _ | _⟩ <;> rfl
theorem Sys2Proof.Laws.OpcodeKnown.bit (m : MemMode) : Sys2Proof.Laws.OpcodeKnown.Statement (.bit m) := by
  cases m <;> rfl
theorem Sys2Proof.Laws.OpcodeKnown.cmp (o : ReadMode) : Sys2Proof.Laws.OpcodeKnown.Statement (.cmp o) := by
  rcases o with _ | ⟨_ | _ | _ | _ | _ | _ | _ | _⟩ <;> rfl
theorem Sys2Proof.Laws.OpcodeKnown.cpx (o : ReadMode) : Sys2Proof.Laws.OpcodeKnown.Statement (.cpx o) := by
  rcases o with _ | ⟨_ | _ | _ | _ | _ | _ | _ | _⟩ <;> rfl
theorem Sys2Proof.Laws.OpcodeKnown.cpy (o : ReadMode) : Sys2Proof.Laws.OpcodeKnown.Statement (.cpy o) := by
  rcases o with _ | ⟨_ | _ | _ | _ | _ | _ | _ | _⟩ <;> rfl
theorem Sys2Proof.Laws.OpcodeKnown.inc (m : MemMode) : Sys2Proof.Laws.OpcodeKnown.Statement (.inc m) := by
  cases m <;> rfl
theorem Sys2Proof.Laws.OpcodeKnown.dec (m : MemMode) : Sys2Proof.Laws.OpcodeKnown.Statement (.dec m) := by
  cases m <;> rfl
theorem Sys2Proof.Laws.OpcodeKnown.inx : Sys2Proof.Laws.OpcodeKnown.Statement .inx := rfl
theorem Sys2Proof.Laws.OpcodeKnown.iny : Sys2Proof.Laws.OpcodeKnown.Statement .iny := rfl
theorem Sys2Proof.Laws.OpcodeKnown.dex : Sys2Proof.Laws.OpcodeKnown.Statement .dex := rfl
theorem Sys2Proof.Laws.OpcodeKnown.dey : Sys2Proof.Laws.OpcodeKnown.Statement .dey := rfl
theorem Sys2Proof.Laws.OpcodeKnown.asl (o : ShiftMode) : Sys2Proof.Laws.OpcodeKnown.Statement (.asl o) := by
  rcases o with _ | ⟨_ | _ | _ | _ | _ | _ | _ | _⟩ <;> rfl
theorem Sys2Proof.Laws.OpcodeKnown.lsr (o : ShiftMode) : Sys2Proof.Laws.OpcodeKnown.Statement (.lsr o) := by
  rcases o with _ | ⟨_ | _ | _ | _ | _ | _ | _ | _⟩ <;> rfl
theorem Sys2Proof.Laws.OpcodeKnown.rol (o : ShiftMode) : Sys2Proof.Laws.OpcodeKnown.Statement (.rol o) := by
  rcases o with _ | ⟨_ | _ | _ | _ | _ | _ | _ | _⟩ <;> rfl
theorem Sys2Proof.Laws.OpcodeKnown.ror (o : ShiftMode) : Sys2Proof.Laws.OpcodeKnown.Statement (.ror o) := by
  rcases o with _ | ⟨_ | _ | _ | _ | _ | _ | _ | _⟩ <;> rfl
theorem Sys2Proof.Laws.OpcodeKnown.bpl (off : Byte) : Sys2Proof.Laws.OpcodeKnown.Statement (.bpl off) := rfl
theorem Sys2Proof.Laws.OpcodeKnown.bmi (off : Byte) : Sys2Proof.Laws.OpcodeKnown.Statement (.bmi off) := rfl
theorem Sys2Proof.Laws.OpcodeKnown.bvc (off : Byte) : Sys2Proof.Laws.OpcodeKnown.Statement (.bvc off) := rfl
theorem Sys2Proof.Laws.OpcodeKnown.bvs (off : Byte) : Sys2Proof.Laws.OpcodeKnown.Statement (.bvs off) := rfl
theorem Sys2Proof.Laws.OpcodeKnown.bcc (off : Byte) : Sys2Proof.Laws.OpcodeKnown.Statement (.bcc off) := rfl
theorem Sys2Proof.Laws.OpcodeKnown.bcs (off : Byte) : Sys2Proof.Laws.OpcodeKnown.Statement (.bcs off) := rfl
theorem Sys2Proof.Laws.OpcodeKnown.bne (off : Byte) : Sys2Proof.Laws.OpcodeKnown.Statement (.bne off) := rfl
theorem Sys2Proof.Laws.OpcodeKnown.beq (off : Byte) : Sys2Proof.Laws.OpcodeKnown.Statement (.beq off) := rfl
theorem Sys2Proof.Laws.OpcodeKnown.jmpAbs (target : Word) : Sys2Proof.Laws.OpcodeKnown.Statement (.jmpAbs target) := rfl
theorem Sys2Proof.Laws.OpcodeKnown.jmpInd (ptr : Word) : Sys2Proof.Laws.OpcodeKnown.Statement (.jmpInd ptr) := rfl
theorem Sys2Proof.Laws.OpcodeKnown.jsr (target : Word) : Sys2Proof.Laws.OpcodeKnown.Statement (.jsr target) := rfl
theorem Sys2Proof.Laws.OpcodeKnown.rts : Sys2Proof.Laws.OpcodeKnown.Statement .rts := rfl
theorem Sys2Proof.Laws.OpcodeKnown.pha : Sys2Proof.Laws.OpcodeKnown.Statement .pha := rfl
theorem Sys2Proof.Laws.OpcodeKnown.php : Sys2Proof.Laws.OpcodeKnown.Statement .php := rfl
theorem Sys2Proof.Laws.OpcodeKnown.pla : Sys2Proof.Laws.OpcodeKnown.Statement .pla := rfl
theorem Sys2Proof.Laws.OpcodeKnown.plp : Sys2Proof.Laws.OpcodeKnown.Statement .plp := rfl
theorem Sys2Proof.Laws.OpcodeKnown.clc : Sys2Proof.Laws.OpcodeKnown.Statement .clc := rfl
theorem Sys2Proof.Laws.OpcodeKnown.sec : Sys2Proof.Laws.OpcodeKnown.Statement .sec := rfl
theorem Sys2Proof.Laws.OpcodeKnown.cli : Sys2Proof.Laws.OpcodeKnown.Statement .cli := rfl
theorem Sys2Proof.Laws.OpcodeKnown.sei : Sys2Proof.Laws.OpcodeKnown.Statement .sei := rfl
theorem Sys2Proof.Laws.OpcodeKnown.cld : Sys2Proof.Laws.OpcodeKnown.Statement .cld := rfl
theorem Sys2Proof.Laws.OpcodeKnown.sed : Sys2Proof.Laws.OpcodeKnown.Statement .sed := rfl
theorem Sys2Proof.Laws.OpcodeKnown.clv : Sys2Proof.Laws.OpcodeKnown.Statement .clv := rfl
theorem Sys2Proof.Laws.OpcodeKnown.brk (pad : Byte) : Sys2Proof.Laws.OpcodeKnown.Statement (.brk pad) := rfl
theorem Sys2Proof.Laws.OpcodeKnown.rti : Sys2Proof.Laws.OpcodeKnown.Statement .rti := rfl
theorem Sys2Proof.Laws.OpcodeKnown.nop : Sys2Proof.Laws.OpcodeKnown.Statement .nop := rfl
theorem Sys2Proof.Laws.OpcodeKnown.undef (op : Byte) : Sys2Proof.Laws.OpcodeKnown.Statement (.undef op) := by
  cases h : undefinedBytes.contains op <;>
    simp only [Sys2Proof.Laws.OpcodeKnown.Statement, Instr.wellFormed, Instr.opcode, h] <;> rfl
end

