-- ==== Sys2Proof/Tests/Slice0.lean ====
section
/-!
SUPPORT. The model's own tests: ill-formed terms refused, every row of the opcode table decoded from
its bits, the one-tick vectors of spec/95_test_vectors.md (one theorem per instruction), single
interrupt ticks, and for each statement with hypotheses a witness that meets them. Every expected
result is the spec's, not the model's.
-/

open Sys2Proof Sys2Proof.Machine Sys2Proof.Statement

namespace Sys2Proof.Tests.Slice0

/-! ## Well-formedness: one ill-formed term per check -/

/-- No Zero Page,Y in the accumulator group (R84). -/
theorem test_wf_forAcc : (Instr.lda (.mem (.zpY 0))).wellFormed = false ∧
    (Instr.sta (.zpY 0)).wellFormed = false := by decide

/-- No Zero Page,X in LDX (R84). -/
theorem test_wf_forLdx : (Instr.ldx (.mem (.zpX 0))).wellFormed = false := by decide

/-- No Absolute,Y in LDY, INC or a shift (R84). -/
theorem test_wf_forIndexX : (Instr.ldy (.mem (.absY 0))).wellFormed = false ∧
    (Instr.inc (.absY 0)).wellFormed = false ∧ (Instr.rol (.mem (.indY 0))).wellFormed = false := by
  decide

/-- No Absolute,Y in STX (R84). -/
theorem test_wf_forStx : (Instr.stx (.absY 0)).wellFormed = false := by decide

/-- No Absolute,X in STY (R84). -/
theorem test_wf_forSty : (Instr.sty (.absX 0)).wellFormed = false := by decide

/-- No indexed mode in BIT, CPX or CPY (R84). -/
theorem test_wf_forPlain : (Instr.bit (.zpX 0)).wellFormed = false ∧
    (Instr.cpx (.mem (.absX 0))).wellFormed = false := by decide

/-- A defined byte is no undefined opcode (R85). -/
theorem test_wf_undef : (Instr.undef 0xEA).wellFormed = false ∧
    (Instr.undef 0x02).wellFormed = true := by decide

/-- A list of bytes that ends inside an instruction is refused by name. -/
theorem test_decode_truncated : decodeBytes [0xAD, 0x10] = .error .truncated ∧
    decodeBytes [] = .error .noOpcode := by decide

/-! ## Decoding: every defined row of spec/opcode_table.json, its bits from the table -/

/-- BRK, CLC, CLD, CLI, CLV, NOP, PHA, PHP, PLA, PLP, RTI, SEC, SED, SEI. -/
theorem test_decode_stack_flag_system :
  decode 0b00000000 0b10110100 0b00000010 = .brk 0xB4 ∧
  decode 0b00011000 0b10110100 0b00000010 = .clc ∧
  decode 0b11011000 0b10110100 0b00000010 = .cld ∧
  decode 0b01011000 0b10110100 0b00000010 = .cli ∧
  decode 0b10111000 0b10110100 0b00000010 = .clv ∧
  decode 0b11101010 0b10110100 0b00000010 = .nop ∧
  decode 0b01001000 0b10110100 0b00000010 = .pha ∧
  decode 0b00001000 0b10110100 0b00000010 = .php ∧
  decode 0b01101000 0b10110100 0b00000010 = .pla ∧
  decode 0b00101000 0b10110100 0b00000010 = .plp ∧
  decode 0b01000000 0b10110100 0b00000010 = .rti ∧
  decode 0b00111000 0b10110100 0b00000010 = .sec ∧
  decode 0b11111000 0b10110100 0b00000010 = .sed ∧
  decode 0b01111000 0b10110100 0b00000010 = .sei := by
  decide

/-- ADC, AND. -/
theorem test_decode_arith_logic_compare_1 :
  decode 0b01100001 0b10110100 0b00000010 = .adc (.mem (.indX 0xB4)) ∧
  decode 0b01100101 0b10110100 0b00000010 = .adc (.mem (.zp 0xB4)) ∧
  decode 0b01101001 0b10110100 0b00000010 = .adc (.imm 0xB4) ∧
  decode 0b01101101 0b10110100 0b00000010 = .adc (.mem (.abs 0x02B4)) ∧
  decode 0b01110001 0b10110100 0b00000010 = .adc (.mem (.indY 0xB4)) ∧
  decode 0b01110101 0b10110100 0b00000010 = .adc (.mem (.zpX 0xB4)) ∧
  decode 0b01111001 0b10110100 0b00000010 = .adc (.mem (.absY 0x02B4)) ∧
  decode 0b01111101 0b10110100 0b00000010 = .adc (.mem (.absX 0x02B4)) ∧
  decode 0b00100001 0b10110100 0b00000010 = .and (.mem (.indX 0xB4)) ∧
  decode 0b00100101 0b10110100 0b00000010 = .and (.mem (.zp 0xB4)) ∧
  decode 0b00101001 0b10110100 0b00000010 = .and (.imm 0xB4) ∧
  decode 0b00101101 0b10110100 0b00000010 = .and (.mem (.abs 0x02B4)) ∧
  decode 0b00110001 0b10110100 0b00000010 = .and (.mem (.indY 0xB4)) ∧
  decode 0b00110101 0b10110100 0b00000010 = .and (.mem (.zpX 0xB4)) ∧
  decode 0b00111001 0b10110100 0b00000010 = .and (.mem (.absY 0x02B4)) ∧
  decode 0b00111101 0b10110100 0b00000010 = .and (.mem (.absX 0x02B4)) := by
  decide

/-- BIT, CMP, CPX, CPY. -/
theorem test_decode_arith_logic_compare_2 :
  decode 0b00100100 0b10110100 0b00000010 = .bit (.zp 0xB4) ∧
  decode 0b00101100 0b10110100 0b00000010 = .bit (.abs 0x02B4) ∧
  decode 0b11000001 0b10110100 0b00000010 = .cmp (.mem (.indX 0xB4)) ∧
  decode 0b11000101 0b10110100 0b00000010 = .cmp (.mem (.zp 0xB4)) ∧
  decode 0b11001001 0b10110100 0b00000010 = .cmp (.imm 0xB4) ∧
  decode 0b11001101 0b10110100 0b00000010 = .cmp (.mem (.abs 0x02B4)) ∧
  decode 0b11010001 0b10110100 0b00000010 = .cmp (.mem (.indY 0xB4)) ∧
  decode 0b11010101 0b10110100 0b00000010 = .cmp (.mem (.zpX 0xB4)) ∧
  decode 0b11011001 0b10110100 0b00000010 = .cmp (.mem (.absY 0x02B4)) ∧
  decode 0b11011101 0b10110100 0b00000010 = .cmp (.mem (.absX 0x02B4)) ∧
  decode 0b11100000 0b10110100 0b00000010 = .cpx (.imm 0xB4) ∧
  decode 0b11100100 0b10110100 0b00000010 = .cpx (.mem (.zp 0xB4)) ∧
  decode 0b11101100 0b10110100 0b00000010 = .cpx (.mem (.abs 0x02B4)) ∧
  decode 0b11000000 0b10110100 0b00000010 = .cpy (.imm 0xB4) ∧
  decode 0b11000100 0b10110100 0b00000010 = .cpy (.mem (.zp 0xB4)) ∧
  decode 0b11001100 0b10110100 0b00000010 = .cpy (.mem (.abs 0x02B4)) := by
  decide

/-- DEC, DEX, DEY, EOR, INC. -/
theorem test_decode_arith_logic_compare_3 :
  decode 0b11000110 0b10110100 0b00000010 = .dec (.zp 0xB4) ∧
  decode 0b11001110 0b10110100 0b00000010 = .dec (.abs 0x02B4) ∧
  decode 0b11010110 0b10110100 0b00000010 = .dec (.zpX 0xB4) ∧
  decode 0b11011110 0b10110100 0b00000010 = .dec (.absX 0x02B4) ∧
  decode 0b11001010 0b10110100 0b00000010 = .dex ∧
  decode 0b10001000 0b10110100 0b00000010 = .dey ∧
  decode 0b01000001 0b10110100 0b00000010 = .eor (.mem (.indX 0xB4)) ∧
  decode 0b01000101 0b10110100 0b00000010 = .eor (.mem (.zp 0xB4)) ∧
  decode 0b01001001 0b10110100 0b00000010 = .eor (.imm 0xB4) ∧
  decode 0b01001101 0b10110100 0b00000010 = .eor (.mem (.abs 0x02B4)) ∧
  decode 0b01010001 0b10110100 0b00000010 = .eor (.mem (.indY 0xB4)) ∧
  decode 0b01010101 0b10110100 0b00000010 = .eor (.mem (.zpX 0xB4)) ∧
  decode 0b01011001 0b10110100 0b00000010 = .eor (.mem (.absY 0x02B4)) ∧
  decode 0b01011101 0b10110100 0b00000010 = .eor (.mem (.absX 0x02B4)) ∧
  decode 0b11100110 0b10110100 0b00000010 = .inc (.zp 0xB4) ∧
  decode 0b11101110 0b10110100 0b00000010 = .inc (.abs 0x02B4) := by
  decide

/-- INC, INX, INY, ORA, SBC. -/
theorem test_decode_arith_logic_compare_4 :
  decode 0b11110110 0b10110100 0b00000010 = .inc (.zpX 0xB4) ∧
  decode 0b11111110 0b10110100 0b00000010 = .inc (.absX 0x02B4) ∧
  decode 0b11101000 0b10110100 0b00000010 = .inx ∧
  decode 0b11001000 0b10110100 0b00000010 = .iny ∧
  decode 0b00000001 0b10110100 0b00000010 = .ora (.mem (.indX 0xB4)) ∧
  decode 0b00000101 0b10110100 0b00000010 = .ora (.mem (.zp 0xB4)) ∧
  decode 0b00001001 0b10110100 0b00000010 = .ora (.imm 0xB4) ∧
  decode 0b00001101 0b10110100 0b00000010 = .ora (.mem (.abs 0x02B4)) ∧
  decode 0b00010001 0b10110100 0b00000010 = .ora (.mem (.indY 0xB4)) ∧
  decode 0b00010101 0b10110100 0b00000010 = .ora (.mem (.zpX 0xB4)) ∧
  decode 0b00011001 0b10110100 0b00000010 = .ora (.mem (.absY 0x02B4)) ∧
  decode 0b00011101 0b10110100 0b00000010 = .ora (.mem (.absX 0x02B4)) ∧
  decode 0b11100001 0b10110100 0b00000010 = .sbc (.mem (.indX 0xB4)) ∧
  decode 0b11100101 0b10110100 0b00000010 = .sbc (.mem (.zp 0xB4)) ∧
  decode 0b11101001 0b10110100 0b00000010 = .sbc (.imm 0xB4) ∧
  decode 0b11101101 0b10110100 0b00000010 = .sbc (.mem (.abs 0x02B4)) := by
  decide

/-- SBC. -/
theorem test_decode_arith_logic_compare_5 :
  decode 0b11110001 0b10110100 0b00000010 = .sbc (.mem (.indY 0xB4)) ∧
  decode 0b11110101 0b10110100 0b00000010 = .sbc (.mem (.zpX 0xB4)) ∧
  decode 0b11111001 0b10110100 0b00000010 = .sbc (.mem (.absY 0x02B4)) ∧
  decode 0b11111101 0b10110100 0b00000010 = .sbc (.mem (.absX 0x02B4)) := by
  decide

/-- UNDEF. -/
theorem test_decode_undefined :
  decode 0b00000010 0b10110100 0b00000010 = .undef 0b00000010 ∧
  decode 0b00011010 0b10110100 0b00000010 = .undef 0b00011010 ∧
  decode 0b00111111 0b10110100 0b00000010 = .undef 0b00111111 ∧
  decode 0b01000100 0b10110100 0b00000010 = .undef 0b01000100 ∧
  decode 0b01011100 0b10110100 0b00000010 = .undef 0b01011100 ∧
  decode 0b10000000 0b10110100 0b00000010 = .undef 0b10000000 ∧
  decode 0b10011110 0b10110100 0b00000010 = .undef 0b10011110 ∧
  decode 0b10100111 0b10110100 0b00000010 = .undef 0b10100111 ∧
  decode 0b10111111 0b10110100 0b00000010 = .undef 0b10111111 ∧
  decode 0b11101011 0b10110100 0b00000010 = .undef 0b11101011 ∧
  decode 0b11111111 0b10110100 0b00000010 = .undef 0b11111111 := by
  decide

/-- ASL, LSR, ROL, ROR. -/
theorem test_decode_shift_rotate_1 :
  decode 0b00000110 0b10110100 0b00000010 = .asl (.mem (.zp 0xB4)) ∧
  decode 0b00001010 0b10110100 0b00000010 = .asl .acc ∧
  decode 0b00001110 0b10110100 0b00000010 = .asl (.mem (.abs 0x02B4)) ∧
  decode 0b00010110 0b10110100 0b00000010 = .asl (.mem (.zpX 0xB4)) ∧
  decode 0b00011110 0b10110100 0b00000010 = .asl (.mem (.absX 0x02B4)) ∧
  decode 0b01000110 0b10110100 0b00000010 = .lsr (.mem (.zp 0xB4)) ∧
  decode 0b01001010 0b10110100 0b00000010 = .lsr .acc ∧
  decode 0b01001110 0b10110100 0b00000010 = .lsr (.mem (.abs 0x02B4)) ∧
  decode 0b01010110 0b10110100 0b00000010 = .lsr (.mem (.zpX 0xB4)) ∧
  decode 0b01011110 0b10110100 0b00000010 = .lsr (.mem (.absX 0x02B4)) ∧
  decode 0b00100110 0b10110100 0b00000010 = .rol (.mem (.zp 0xB4)) ∧
  decode 0b00101010 0b10110100 0b00000010 = .rol .acc ∧
  decode 0b00101110 0b10110100 0b00000010 = .rol (.mem (.abs 0x02B4)) ∧
  decode 0b00110110 0b10110100 0b00000010 = .rol (.mem (.zpX 0xB4)) ∧
  decode 0b00111110 0b10110100 0b00000010 = .rol (.mem (.absX 0x02B4)) ∧
  decode 0b01100110 0b10110100 0b00000010 = .ror (.mem (.zp 0xB4)) := by
  decide

/-- ROR. -/
theorem test_decode_shift_rotate_2 :
  decode 0b01101010 0b10110100 0b00000010 = .ror .acc ∧
  decode 0b01101110 0b10110100 0b00000010 = .ror (.mem (.abs 0x02B4)) ∧
  decode 0b01110110 0b10110100 0b00000010 = .ror (.mem (.zpX 0xB4)) ∧
  decode 0b01111110 0b10110100 0b00000010 = .ror (.mem (.absX 0x02B4)) := by
  decide

/-- BCC, BCS, BEQ, BMI, BNE, BPL, BVC, BVS, JMP, JSR, RTS. -/
theorem test_decode_control_flow :
  decode 0b10010000 0b10110100 0b00000010 = .bcc 0xB4 ∧
  decode 0b10110000 0b10110100 0b00000010 = .bcs 0xB4 ∧
  decode 0b11110000 0b10110100 0b00000010 = .beq 0xB4 ∧
  decode 0b00110000 0b10110100 0b00000010 = .bmi 0xB4 ∧
  decode 0b11010000 0b10110100 0b00000010 = .bne 0xB4 ∧
  decode 0b00010000 0b10110100 0b00000010 = .bpl 0xB4 ∧
  decode 0b01010000 0b10110100 0b00000010 = .bvc 0xB4 ∧
  decode 0b01110000 0b10110100 0b00000010 = .bvs 0xB4 ∧
  decode 0b01001100 0b10110100 0b00000010 = .jmpAbs 0x02B4 ∧
  decode 0b01101100 0b10110100 0b00000010 = .jmpInd 0x02B4 ∧
  decode 0b00100000 0b10110100 0b00000010 = .jsr 0x02B4 ∧
  decode 0b01100000 0b10110100 0b00000010 = .rts := by
  decide

/-- LDA, LDX, LDY. -/
theorem test_decode_load_store_transfer_1 :
  decode 0b10100001 0b10110100 0b00000010 = .lda (.mem (.indX 0xB4)) ∧
  decode 0b10100101 0b10110100 0b00000010 = .lda (.mem (.zp 0xB4)) ∧
  decode 0b10101001 0b10110100 0b00000010 = .lda (.imm 0xB4) ∧
  decode 0b10101101 0b10110100 0b00000010 = .lda (.mem (.abs 0x02B4)) ∧
  decode 0b10110001 0b10110100 0b00000010 = .lda (.mem (.indY 0xB4)) ∧
  decode 0b10110101 0b10110100 0b00000010 = .lda (.mem (.zpX 0xB4)) ∧
  decode 0b10111001 0b10110100 0b00000010 = .lda (.mem (.absY 0x02B4)) ∧
  decode 0b10111101 0b10110100 0b00000010 = .lda (.mem (.absX 0x02B4)) ∧
  decode 0b10100010 0b10110100 0b00000010 = .ldx (.imm 0xB4) ∧
  decode 0b10100110 0b10110100 0b00000010 = .ldx (.mem (.zp 0xB4)) ∧
  decode 0b10101110 0b10110100 0b00000010 = .ldx (.mem (.abs 0x02B4)) ∧
  decode 0b10110110 0b10110100 0b00000010 = .ldx (.mem (.zpY 0xB4)) ∧
  decode 0b10111110 0b10110100 0b00000010 = .ldx (.mem (.absY 0x02B4)) ∧
  decode 0b10100000 0b10110100 0b00000010 = .ldy (.imm 0xB4) ∧
  decode 0b10100100 0b10110100 0b00000010 = .ldy (.mem (.zp 0xB4)) ∧
  decode 0b10101100 0b10110100 0b00000010 = .ldy (.mem (.abs 0x02B4)) := by
  decide

/-- LDY, STA, STX, STY, TAX. -/
theorem test_decode_load_store_transfer_2 :
  decode 0b10110100 0b10110100 0b00000010 = .ldy (.mem (.zpX 0xB4)) ∧
  decode 0b10111100 0b10110100 0b00000010 = .ldy (.mem (.absX 0x02B4)) ∧
  decode 0b10000001 0b10110100 0b00000010 = .sta (.indX 0xB4) ∧
  decode 0b10000101 0b10110100 0b00000010 = .sta (.zp 0xB4) ∧
  decode 0b10001101 0b10110100 0b00000010 = .sta (.abs 0x02B4) ∧
  decode 0b10010001 0b10110100 0b00000010 = .sta (.indY 0xB4) ∧
  decode 0b10010101 0b10110100 0b00000010 = .sta (.zpX 0xB4) ∧
  decode 0b10011001 0b10110100 0b00000010 = .sta (.absY 0x02B4) ∧
  decode 0b10011101 0b10110100 0b00000010 = .sta (.absX 0x02B4) ∧
  decode 0b10000110 0b10110100 0b00000010 = .stx (.zp 0xB4) ∧
  decode 0b10001110 0b10110100 0b00000010 = .stx (.abs 0x02B4) ∧
  decode 0b10010110 0b10110100 0b00000010 = .stx (.zpY 0xB4) ∧
  decode 0b10000100 0b10110100 0b00000010 = .sty (.zp 0xB4) ∧
  decode 0b10001100 0b10110100 0b00000010 = .sty (.abs 0x02B4) ∧
  decode 0b10010100 0b10110100 0b00000010 = .sty (.zpX 0xB4) ∧
  decode 0b10101010 0b10110100 0b00000010 = .tax := by
  decide

/-- TAY, TSX, TXA, TXS, TYA. -/
theorem test_decode_load_store_transfer_3 :
  decode 0b10101000 0b10110100 0b00000010 = .tay ∧
  decode 0b10111010 0b10110100 0b00000010 = .tsx ∧
  decode 0b10001010 0b10110100 0b00000010 = .txa ∧
  decode 0b10011010 0b10110100 0b00000010 = .txs ∧
  decode 0b10011000 0b10110100 0b00000010 = .tya := by
  decide

/-! ## One tick: the vectors of spec/95_test_vectors.md -/

/-- The default start state of the vectors: A = X = Y = 0, SP = 0xFF, I = 0, no latch set, the
vectors 0x9000, 0x8000 and 0xA000, and the code at `pc`. -/
def start (pc : Word) (code : List Byte) : State :=
  { State.reset with
    pc := pc, resetReq := false, p := { State.reset.p with i := false }
    prg := Memory.ofBytes code (pc.toNat - 0x8000) ++ [(0x7FFB, 0x90), (0x7FFD, 0x80), (0x7FFF, 0xA0)] }

/-- The same with one more PRG cell, between the code and the vectors. -/
def startWith (pc : Word) (code : List Byte) (c : Host.Cell) : State :=
  { start pc code with
    prg := Memory.ofBytes code (pc.toNat - 0x8000) ++
      [c, (0x7FFB, 0x90), (0x7FFD, 0x80), (0x7FFF, 0xA0)] }

/-- What a vector states of the end state. -/
structure Seen where
  a : Byte
  x : Byte
  y : Byte
  sp : Byte
  pc : Word
  p : Byte
  cycles : Cycles
  writes : List Access
  deriving DecidableEq

/-- Whether an access is a write. -/
def isWrite : Access → Bool
  | .write _ _ => true
  | .read _ _ => false

/-- The end state of one tick as a vector states it. -/
def after (s : State) : Option Seen :=
  (nextState (step s)).map fun t =>
    ⟨t.a, t.x, t.y, t.sp, t.pc, t.p.pack, t.cycles, t.trace.filter isWrite⟩

/-- The trace of one tick. -/
def accesses (s : State) : Option (List Access) := (nextState (step s)).map fun t => t.trace

/-- spec/95_test_vectors.md: AM-1, AM-2, AM-3, AM-5, AM-6, AM-7, AM-8, AM-9, AM-10, AM-11, AM-16, LS-1, LS-2. -/
theorem test_lda :
  after (start 0x8000 [0xA9, 0x37]) = some ⟨0x37, 0x00, 0x00, 0xFF, 0x8002, 0x30, 2, []⟩ ∧
  after { start 0x8000 [0xA5, 0x10] with ram := [(0x10, 0x44)] } =
      some ⟨0x44, 0x00, 0x00, 0xFF, 0x8002, 0x30, 3, []⟩ ∧
  after { start 0x8000 [0xB5, 0xF0] with x := 0x20, ram := [(0x10, 0x55), (0x110, 0x66)] } =
      some ⟨0x55, 0x20, 0x00, 0xFF, 0x8002, 0x30, 4, []⟩ ∧
  after { start 0x8000 [0xAD, 0x10, 0x08] with ram := [(0x10, 0x99)] } =
      some ⟨0x99, 0x00, 0x00, 0xFF, 0x8003, 0xB0, 4, []⟩ ∧
  after { start 0x8000 [0xBD, 0xF0, 0x12] with x := 0x0F, ram := [(0x2FF, 0x11)] } =
      some ⟨0x11, 0x0F, 0x00, 0xFF, 0x8003, 0x30, 4, []⟩ ∧
  after { start 0x8000 [0xBD, 0xF0, 0x12] with x := 0x20, ram := [(0x310, 0x22)] } =
      some ⟨0x22, 0x20, 0x00, 0xFF, 0x8003, 0x30, 5, []⟩ ∧
  after { start 0x8000 [0xB9, 0xFF, 0xFF] with y := 0x01, ram := [(0x0, 0x33)] } =
      some ⟨0x33, 0x00, 0x01, 0xFF, 0x8003, 0x30, 5, []⟩ ∧
  after { start 0x8000 [0xA1, 0xFE] with x := 0x01, ram := [(0x0, 0x03), (0x300, 0x5A)] } =
      some ⟨0x5A, 0x01, 0x00, 0xFF, 0x8002, 0x30, 6, []⟩ ∧
  after { start 0x8000 [0xB1, 0x40] with
    y := 0x10, ram := [(0x40, 0xF8), (0x41, 0x02), (0x308, 0x6B)] } =
      some ⟨0x6B, 0x00, 0x10, 0xFF, 0x8002, 0x30, 6, []⟩ ∧
  after { start 0x8000 [0xB1, 0xFF] with y := 0x00, ram := [(0x0, 0x04), (0x400, 0x7C)] } =
      some ⟨0x7C, 0x00, 0x00, 0xFF, 0x8002, 0x30, 5, []⟩ ∧
  after { start 0x8000 [0xA1, 0x20] with x := 0x04, ram := [(0x25, 0x02), (0x200, 0xAB)] } =
      some ⟨0xAB, 0x04, 0x00, 0xFF, 0x8002, 0xB0, 6, []⟩ ∧
  after (start 0x8000 [0xA9, 0x80]) = some ⟨0x80, 0x00, 0x00, 0xFF, 0x8002, 0xB0, 2, []⟩ ∧
  after { start 0x8000 [0xA9, 0x00] with a := 0x12 } =
      some ⟨0x00, 0x00, 0x00, 0xFF, 0x8002, 0x32, 2, []⟩ := by
  decide +kernel

/-- spec/95_test_vectors.md: AM-4, LS-3. -/
theorem test_ldx :
  after { start 0x8000 [0xB6, 0xFF] with y := 0x02, ram := [(0x1, 0x77)] } =
      some ⟨0x00, 0x77, 0x02, 0xFF, 0x8002, 0x30, 4, []⟩ ∧
  after { start 0x8000 [0xBE, 0x00, 0x03] with y := 0x05, ram := [(0x305, 0xFE)] } =
      some ⟨0x00, 0xFE, 0x05, 0xFF, 0x8003, 0xB0, 4, []⟩ := by
  decide +kernel

/-- spec/95_test_vectors.md: AM-12, AM-13, LS-5, LS-6, LS-7, LS-8. -/
theorem test_sta :
  after { start 0x8000 [0x9D, 0xF0, 0x02] with a := 0x01, x := 0x20 } =
      some ⟨0x01, 0x20, 0x00, 0xFF, 0x8003, 0x30, 5, [.write 0x0310 0x01]⟩ ∧
  after { start 0x8000 [0x9D, 0xF0, 0x02] with
    a := 0x01, x := 0x20, params := { Params.defaults 2 with pagePenaltyScope := .allIndexed } } =
      some ⟨0x01, 0x20, 0x00, 0xFF, 0x8003, 0x30, 6, [.write 0x0310 0x01]⟩ ∧
  after { start 0x8000 [0x8D, 0xFF, 0x1F] with a := 0x5E } =
      some ⟨0x5E, 0x00, 0x00, 0xFF, 0x8003, 0x30, 4, [.write 0x1FFF 0x5E]⟩ ∧
  after { start 0x8000 [0x8D, 0xFE, 0x3F] with a := 0x21 } =
      some ⟨0x21, 0x00, 0x00, 0xFF, 0x8003, 0x30, 4, [.write 0x3FFE 0x21]⟩ ∧
  after { start 0x8000 [0x8D, 0x00, 0x80] with a := 0xEE } =
      some ⟨0xEE, 0x00, 0x00, 0xFF, 0x8003, 0x30, 4, [.write 0x8000 0xEE]⟩ ∧
  after { start 0x8000 [0x8D, 0x00, 0x60] with a := 0xEE } =
      some ⟨0xEE, 0x00, 0x00, 0xFF, 0x8003, 0x30, 4, [.write 0x6000 0xEE]⟩ := by
  decide +kernel

/-- spec/95_test_vectors.md: AM-14, SH-1, SH-2, SH-9. -/
theorem test_asl :
  after { start 0x8000 [0x1E, 0xF0, 0x02] with x := 0x20, ram := [(0x310, 0x41)] } =
      some ⟨0x00, 0x20, 0x00, 0xFF, 0x8003, 0xB0, 7, [.write 0x0310 0x82]⟩ ∧
  after { start 0x8000 [0x0A] with a := 0x80 } = some ⟨0x00, 0x00, 0x00, 0xFF, 0x8001, 0x33, 2, []⟩ ∧
  after { start 0x8000 [0x06, 0x10] with ram := [(0x10, 0x41)] } =
      some ⟨0x00, 0x00, 0x00, 0xFF, 0x8002, 0xB0, 5, [.write 0x0010 0x82]⟩ ∧
  after (startWith 0x8000 [0x0E, 0x00, 0xC0] (0x4000, 0x81)) =
      some ⟨0x00, 0x00, 0x00, 0xFF, 0x8003, 0x31, 6, [.write 0xC000 0x02]⟩ := by
  decide +kernel

/-- spec/95_test_vectors.md: AM-15, AR-31. -/
theorem test_inx :
  after (start 0x8000 [0xE8]) = some ⟨0x00, 0x01, 0x00, 0xFF, 0x8001, 0x30, 2, []⟩ ∧
  after { start 0x8000 [0xE8] with x := 0xFF } = some ⟨0x00, 0x00, 0x00, 0xFF, 0x8001, 0x32, 2, []⟩ := by
  decide +kernel

/-- spec/95_test_vectors.md: LS-4. -/
theorem test_ldy :
  after { start 0x8000 [0xB4, 0x80] with x := 0x01, ram := [(0x81, 0x01)] } =
      some ⟨0x00, 0x01, 0x01, 0xFF, 0x8002, 0x30, 4, []⟩ := by
  decide +kernel

/-- spec/95_test_vectors.md: LS-9. -/
theorem test_stx :
  after { start 0x8000 [0x96, 0xFF] with x := 0x42, y := 0x03 } =
      some ⟨0x00, 0x42, 0x03, 0xFF, 0x8002, 0x30, 4, [.write 0x0002 0x42]⟩ := by
  decide +kernel

/-- spec/95_test_vectors.md: LS-10. -/
theorem test_sty :
  after { start 0x8000 [0x84, 0x00] with y := 0x00, p := Flags.unpack 0x82 } =
      some ⟨0x00, 0x00, 0x00, 0xFF, 0x8002, 0xA2, 3, [.write 0x0000 0x00]⟩ := by
  decide +kernel

/-- spec/95_test_vectors.md: LS-11. -/
theorem test_tax :
  after { start 0x8000 [0xAA] with a := 0x00, x := 0x55 } =
      some ⟨0x00, 0x00, 0x00, 0xFF, 0x8001, 0x32, 2, []⟩ := by
  decide +kernel

/-- spec/95_test_vectors.md: LS-12. -/
theorem test_tay :
  after { start 0x8000 [0xA8] with a := 0xC0 } = some ⟨0xC0, 0x00, 0xC0, 0xFF, 0x8001, 0xB0, 2, []⟩ := by
  decide +kernel

/-- spec/95_test_vectors.md: LS-13. -/
theorem test_txa :
  after { start 0x8000 [0x8A] with x := 0x7F } = some ⟨0x7F, 0x7F, 0x00, 0xFF, 0x8001, 0x30, 2, []⟩ := by
  decide +kernel

/-- spec/95_test_vectors.md: LS-14. -/
theorem test_tya :
  after { start 0x8000 [0x98] with y := 0x80 } = some ⟨0x80, 0x00, 0x80, 0xFF, 0x8001, 0xB0, 2, []⟩ := by
  decide +kernel

/-- spec/95_test_vectors.md: LS-15. -/
theorem test_tsx :
  after { start 0x8000 [0xBA] with sp := 0x00 } = some ⟨0x00, 0x00, 0x00, 0x00, 0x8001, 0x32, 2, []⟩ := by
  decide +kernel

/-- spec/95_test_vectors.md: LS-16. -/
theorem test_txs :
  after { start 0x8000 [0x9A] with x := 0x00, p := Flags.unpack 0x80 } =
      some ⟨0x00, 0x00, 0x00, 0x00, 0x8001, 0xA0, 2, []⟩ := by
  decide +kernel

/-- spec/95_test_vectors.md: AR-1, AR-2, AR-3, AR-4, AR-5, AR-6, AR-7, AR-8, AR-16. -/
theorem test_adc :
  after { start 0x8000 [0x69, 0x00] with a := 0x00, p := Flags.unpack 0x30 } =
      some ⟨0x00, 0x00, 0x00, 0xFF, 0x8002, 0x32, 2, []⟩ ∧
  after { start 0x8000 [0x69, 0x01] with a := 0x7F, p := Flags.unpack 0x30 } =
      some ⟨0x80, 0x00, 0x00, 0xFF, 0x8002, 0xF0, 2, []⟩ ∧
  after { start 0x8000 [0x69, 0x01] with a := 0xFF, p := Flags.unpack 0x30 } =
      some ⟨0x00, 0x00, 0x00, 0xFF, 0x8002, 0x33, 2, []⟩ ∧
  after { start 0x8000 [0x69, 0xFF] with a := 0x80, p := Flags.unpack 0x30 } =
      some ⟨0x7F, 0x00, 0x00, 0xFF, 0x8002, 0x71, 2, []⟩ ∧
  after { start 0x8000 [0x69, 0x80] with a := 0x80, p := Flags.unpack 0x30 } =
      some ⟨0x00, 0x00, 0x00, 0xFF, 0x8002, 0x73, 2, []⟩ ∧
  after { start 0x8000 [0x69, 0xFF] with a := 0xFF, p := Flags.unpack 0x31 } =
      some ⟨0xFF, 0x00, 0x00, 0xFF, 0x8002, 0xB1, 2, []⟩ ∧
  after { start 0x8000 [0x69, 0x7F] with a := 0x7F, p := Flags.unpack 0x31 } =
      some ⟨0xFF, 0x00, 0x00, 0xFF, 0x8002, 0xF0, 2, []⟩ ∧
  after { start 0x8000 [0x69, 0xFE] with a := 0x01, p := Flags.unpack 0x31 } =
      some ⟨0x00, 0x00, 0x00, 0xFF, 0x8002, 0x33, 2, []⟩ ∧
  after { start 0x8000 [0x69, 0x01] with a := 0x09, p := Flags.unpack 0x38 } =
      some ⟨0x0A, 0x00, 0x00, 0xFF, 0x8002, 0x38, 2, []⟩ := by
  decide +kernel

/-- spec/95_test_vectors.md: AR-9, AR-10, AR-11, AR-12, AR-13, AR-14, AR-15. -/
theorem test_sbc :
  after { start 0x8000 [0xE9, 0x01] with a := 0x00, p := Flags.unpack 0x31 } =
      some ⟨0xFF, 0x00, 0x00, 0xFF, 0x8002, 0xB0, 2, []⟩ ∧
  after { start 0x8000 [0xE9, 0x01] with a := 0x80, p := Flags.unpack 0x31 } =
      some ⟨0x7F, 0x00, 0x00, 0xFF, 0x8002, 0x71, 2, []⟩ ∧
  after { start 0x8000 [0xE9, 0xFF] with a := 0x7F, p := Flags.unpack 0x31 } =
      some ⟨0x80, 0x00, 0x00, 0xFF, 0x8002, 0xF0, 2, []⟩ ∧
  after { start 0x8000 [0xE9, 0x05] with a := 0x05, p := Flags.unpack 0x31 } =
      some ⟨0x00, 0x00, 0x00, 0xFF, 0x8002, 0x33, 2, []⟩ ∧
  after { start 0x8000 [0xE9, 0x05] with a := 0x05, p := Flags.unpack 0x30 } =
      some ⟨0xFF, 0x00, 0x00, 0xFF, 0x8002, 0xB0, 2, []⟩ ∧
  after { start 0x8000 [0xE9, 0x00] with a := 0x00, p := Flags.unpack 0x30 } =
      some ⟨0xFF, 0x00, 0x00, 0xFF, 0x8002, 0xB0, 2, []⟩ ∧
  after { start 0x8000 [0xE9, 0x7F] with a := 0xFF, p := Flags.unpack 0x31 } =
      some ⟨0x80, 0x00, 0x00, 0xFF, 0x8002, 0xB1, 2, []⟩ := by
  decide +kernel

/-- spec/95_test_vectors.md: AR-17. -/
theorem test_and :
  after { start 0x8000 [0x29, 0x0F] with a := 0xF0 } =
      some ⟨0x00, 0x00, 0x00, 0xFF, 0x8002, 0x32, 2, []⟩ := by
  decide +kernel

/-- spec/95_test_vectors.md: AR-18. -/
theorem test_ora :
  after { start 0x8000 [0x09, 0x80] with a := 0x01 } =
      some ⟨0x81, 0x00, 0x00, 0xFF, 0x8002, 0xB0, 2, []⟩ := by
  decide +kernel

/-- spec/95_test_vectors.md: AR-19. -/
theorem test_eor :
  after { start 0x8000 [0x49, 0xA5] with a := 0xA5 } =
      some ⟨0x00, 0x00, 0x00, 0xFF, 0x8002, 0x32, 2, []⟩ := by
  decide +kernel

/-- spec/95_test_vectors.md: AR-20, AR-21. -/
theorem test_bit :
  after { start 0x8000 [0x2C, 0x02, 0x20] with
    a := 0x01, ppu := { PpuRegs.zero with status := 0x41 } } =
      some ⟨0x01, 0x00, 0x00, 0xFF, 0x8003, 0x70, 4, []⟩ ∧
  after { start 0x8000 [0x24, 0x10] with a := 0xFF, p := Flags.unpack 0xF0, ram := [(0x10, 0x3F)] } =
      some ⟨0xFF, 0x00, 0x00, 0xFF, 0x8002, 0x30, 3, []⟩ := by
  decide +kernel

/-- spec/95_test_vectors.md: AR-22, AR-23, AR-24, AR-25. -/
theorem test_cmp :
  after { start 0x8000 [0xC9, 0x40] with a := 0x40 } =
      some ⟨0x40, 0x00, 0x00, 0xFF, 0x8002, 0x33, 2, []⟩ ∧
  after { start 0x8000 [0xC9, 0x41] with a := 0x40 } =
      some ⟨0x40, 0x00, 0x00, 0xFF, 0x8002, 0xB0, 2, []⟩ ∧
  after { start 0x8000 [0xC9, 0x01] with a := 0xFF } =
      some ⟨0xFF, 0x00, 0x00, 0xFF, 0x8002, 0xB1, 2, []⟩ ∧
  after { start 0x8000 [0xC9, 0x10] with a := 0x20, p := Flags.unpack 0x30 } =
      some ⟨0x20, 0x00, 0x00, 0xFF, 0x8002, 0x31, 2, []⟩ := by
  decide +kernel

/-- spec/95_test_vectors.md: AR-26. -/
theorem test_cpx :
  after { start 0x8000 [0xE0, 0x80] with x := 0x7F } =
      some ⟨0x00, 0x7F, 0x00, 0xFF, 0x8002, 0xB0, 2, []⟩ := by
  decide +kernel

/-- spec/95_test_vectors.md: AR-27. -/
theorem test_cpy :
  after { start 0x8000 [0xC4, 0x10] with y := 0x10, ram := [(0x10, 0x10)] } =
      some ⟨0x00, 0x00, 0x10, 0xFF, 0x8002, 0x33, 3, []⟩ := by
  decide +kernel

/-- spec/95_test_vectors.md: AR-28, AR-29. -/
theorem test_inc :
  after { start 0x8000 [0xE6, 0x10] with ram := [(0x10, 0xFF)] } =
      some ⟨0x00, 0x00, 0x00, 0xFF, 0x8002, 0x32, 5, [.write 0x0010 0x00]⟩ ∧
  after { start 0x8000 [0xFE, 0x00, 0x02] with x := 0x01, ram := [(0x201, 0x7F)] } =
      some ⟨0x00, 0x01, 0x00, 0xFF, 0x8003, 0xB0, 7, [.write 0x0201 0x80]⟩ := by
  decide +kernel

/-- spec/95_test_vectors.md: AR-30. -/
theorem test_dec :
  after { start 0x8000 [0xC6, 0x10] with ram := [] } =
      some ⟨0x00, 0x00, 0x00, 0xFF, 0x8002, 0xB0, 5, [.write 0x0010 0xFF]⟩ := by
  decide +kernel

/-- spec/95_test_vectors.md: AR-32. -/
theorem test_iny :
  after { start 0x8000 [0xC8] with y := 0x7F } = some ⟨0x00, 0x00, 0x80, 0xFF, 0x8001, 0xB0, 2, []⟩ := by
  decide +kernel

/-- spec/95_test_vectors.md: AR-33. -/
theorem test_dex :
  after { start 0x8000 [0xCA] with x := 0x01 } = some ⟨0x00, 0x00, 0x00, 0xFF, 0x8001, 0x32, 2, []⟩ := by
  decide +kernel

/-- spec/95_test_vectors.md: AR-34. -/
theorem test_dey :
  after { start 0x8000 [0x88] with y := 0x00 } = some ⟨0x00, 0x00, 0xFF, 0xFF, 0x8001, 0xB0, 2, []⟩ := by
  decide +kernel

/-- spec/95_test_vectors.md: SH-3, SH-4. -/
theorem test_lsr :
  after { start 0x8000 [0x4A] with a := 0x01, p := Flags.unpack 0xB0 } =
      some ⟨0x00, 0x00, 0x00, 0xFF, 0x8001, 0x33, 2, []⟩ ∧
  after { start 0x8000 [0x4E, 0x00, 0x03] with ram := [(0x300, 0xFF)] } =
      some ⟨0x00, 0x00, 0x00, 0xFF, 0x8003, 0x31, 6, [.write 0x0300 0x7F]⟩ := by
  decide +kernel

/-- spec/95_test_vectors.md: SH-5, SH-6. -/
theorem test_rol :
  after { start 0x8000 [0x2A] with a := 0x80, p := Flags.unpack 0x31 } =
      some ⟨0x01, 0x00, 0x00, 0xFF, 0x8001, 0x31, 2, []⟩ ∧
  after { start 0x8000 [0x36, 0x0F] with x := 0x01, ram := [(0x10, 0x7F)] } =
      some ⟨0x00, 0x01, 0x00, 0xFF, 0x8002, 0xB0, 6, [.write 0x0010 0xFE]⟩ := by
  decide +kernel

/-- spec/95_test_vectors.md: SH-7, SH-8. -/
theorem test_ror :
  after { start 0x8000 [0x6A] with a := 0x00, p := Flags.unpack 0x31 } =
      some ⟨0x80, 0x00, 0x00, 0xFF, 0x8001, 0xB0, 2, []⟩ ∧
  after { start 0x8000 [0x7E, 0x00, 0x03] with x := 0x02, ram := [(0x302, 0x03)] } =
      some ⟨0x00, 0x02, 0x00, 0xFF, 0x8003, 0x31, 7, [.write 0x0302 0x01]⟩ := by
  decide +kernel

/-- spec/95_test_vectors.md: CF-1, CF-2. -/
theorem test_beq :
  after { start 0x8000 [0xF0, 0x10] with p := Flags.unpack 0x30 } =
      some ⟨0x00, 0x00, 0x00, 0xFF, 0x8002, 0x30, 2, []⟩ ∧
  after { start 0x8000 [0xF0, 0x10] with p := Flags.unpack 0x32 } =
      some ⟨0x00, 0x00, 0x00, 0xFF, 0x8012, 0x32, 3, []⟩ := by
  decide +kernel

/-- spec/95_test_vectors.md: CF-3. -/
theorem test_bne :
  after (start 0x8100 [0xD0, 0xFB]) = some ⟨0x00, 0x00, 0x00, 0xFF, 0x80FD, 0x30, 4, []⟩ := by
  decide +kernel

/-- spec/95_test_vectors.md: CF-4. -/
theorem test_bpl :
  after (start 0x80FD [0x10, 0x01]) = some ⟨0x00, 0x00, 0x00, 0xFF, 0x8100, 0x30, 4, []⟩ := by
  decide +kernel

/-- spec/95_test_vectors.md: CF-5. -/
theorem test_bmi :
  after { start 0x8000 [0x30, 0x00] with p := Flags.unpack 0xB0 } =
      some ⟨0x00, 0x00, 0x00, 0xFF, 0x8002, 0xB0, 3, []⟩ := by
  decide +kernel

/-- spec/95_test_vectors.md: CF-6. -/
theorem test_bvc :
  after (start 0x8000 [0x50, 0xFE]) = some ⟨0x00, 0x00, 0x00, 0xFF, 0x8000, 0x30, 3, []⟩ := by
  decide +kernel

/-- spec/95_test_vectors.md: CF-7. -/
theorem test_bvs :
  after (start 0x8000 [0x70, 0x7F]) = some ⟨0x00, 0x00, 0x00, 0xFF, 0x8002, 0x30, 2, []⟩ := by
  decide +kernel

/-- spec/95_test_vectors.md: CF-8. -/
theorem test_bcc :
  after (start 0x8000 [0x90, 0x7F]) = some ⟨0x00, 0x00, 0x00, 0xFF, 0x8081, 0x30, 3, []⟩ := by
  decide +kernel

/-- spec/95_test_vectors.md: CF-9. -/
theorem test_bcs :
  after { start 0x8000 [0xB0, 0x80] with p := Flags.unpack 0x31 } =
      some ⟨0x00, 0x00, 0x00, 0xFF, 0x7F82, 0x31, 4, []⟩ := by
  decide +kernel

/-- spec/95_test_vectors.md: CF-10, CF-11, CF-12. -/
theorem test_jmp :
  after (start 0x8000 [0x4C, 0x34, 0x12]) = some ⟨0x00, 0x00, 0x00, 0xFF, 0x1234, 0x30, 3, []⟩ ∧
  after { start 0x8000 [0x6C, 0xFF, 0x02] with ram := [(0x200, 0x90), (0x300, 0xA0)] } =
      some ⟨0x00, 0x00, 0x00, 0xFF, 0x9000, 0x30, 5, []⟩ ∧
  after { start 0x8000 [0x6C, 0xFF, 0x02] with
    ram := [(0x200, 0x90), (0x300, 0xA0)], params := { Params.defaults 2 with jmpIndPageWrap := false } } =
      some ⟨0x00, 0x00, 0x00, 0xFF, 0xA000, 0x30, 5, []⟩ := by
  decide +kernel

/-- spec/95_test_vectors.md: CF-13, CF-14. -/
theorem test_jsr :
  after (start 0x8000 [0x20, 0x00, 0x90]) =
      some ⟨0x00, 0x00, 0x00, 0xFD, 0x9000, 0x30, 6, [.write 0x01FF 0x80, .write 0x01FE 0x02]⟩ ∧
  after { start 0x8000 [0x20, 0x00, 0x90] with sp := 0x00 } =
      some ⟨0x00, 0x00, 0x00, 0xFE, 0x9000, 0x30, 6, [.write 0x0100 0x80, .write 0x01FF 0x02]⟩ := by
  decide +kernel

/-- spec/95_test_vectors.md: CF-16. -/
theorem test_rts :
  after { start 0x8000 [0x60] with sp := 0xFD, ram := [(0x1FE, 0xFF), (0x1FF, 0xFF)] } =
      some ⟨0x00, 0x00, 0x00, 0xFF, 0x0000, 0x30, 6, []⟩ := by
  decide +kernel

/-- spec/95_test_vectors.md: SF-1, SF-2. -/
theorem test_pha :
  after { start 0x8000 [0x48] with a := 0x42 } =
      some ⟨0x42, 0x00, 0x00, 0xFE, 0x8001, 0x30, 3, [.write 0x01FF 0x42]⟩ ∧
  after { start 0x8000 [0x48] with a := 0x42, sp := 0x00 } =
      some ⟨0x42, 0x00, 0x00, 0xFF, 0x8001, 0x30, 3, [.write 0x0100 0x42]⟩ := by
  decide +kernel

/-- spec/95_test_vectors.md: SF-3. -/
theorem test_php :
  after { start 0x8000 [0x08] with p := Flags.unpack 0x03 } =
      some ⟨0x00, 0x00, 0x00, 0xFE, 0x8001, 0x23, 3, [.write 0x01FF 0x33]⟩ := by
  decide +kernel

/-- spec/95_test_vectors.md: SF-4, SF-5. -/
theorem test_pla :
  after { start 0x8000 [0x68] with sp := 0xFE, ram := [(0x1FF, 0x80)] } =
      some ⟨0x80, 0x00, 0x00, 0xFF, 0x8001, 0xB0, 4, []⟩ ∧
  after { start 0x8000 [0x68] with sp := 0xFF, ram := [] } =
      some ⟨0x00, 0x00, 0x00, 0x00, 0x8001, 0x32, 4, []⟩ := by
  decide +kernel

/-- spec/95_test_vectors.md: SF-6, SF-7. -/
theorem test_plp :
  after { start 0x8000 [0x28] with sp := 0xFE, p := Flags.unpack 0xFF, ram := [] } =
      some ⟨0x00, 0x00, 0x00, 0xFF, 0x8001, 0x20, 4, []⟩ ∧
  after { start 0x8000 [0x28] with sp := 0xFE, ram := [(0x1FF, 0xFF)] } =
      some ⟨0x00, 0x00, 0x00, 0xFF, 0x8001, 0xFF, 4, []⟩ := by
  decide +kernel

/-- spec/95_test_vectors.md: SF-8. -/
theorem test_clc :
  after { start 0x8000 [0x18] with p := Flags.unpack 0x31 } =
      some ⟨0x00, 0x00, 0x00, 0xFF, 0x8001, 0x30, 2, []⟩ := by
  decide +kernel

/-- spec/95_test_vectors.md: SF-9. -/
theorem test_sec :
  after (start 0x8000 [0x38]) = some ⟨0x00, 0x00, 0x00, 0xFF, 0x8001, 0x31, 2, []⟩ := by
  decide +kernel

/-- spec/95_test_vectors.md: SF-10. -/
theorem test_cli :
  after { start 0x8000 [0x58] with p := Flags.unpack 0x34 } =
      some ⟨0x00, 0x00, 0x00, 0xFF, 0x8001, 0x30, 2, []⟩ := by
  decide +kernel

/-- spec/95_test_vectors.md: SF-11. -/
theorem test_sei :
  after (start 0x8000 [0x78]) = some ⟨0x00, 0x00, 0x00, 0xFF, 0x8001, 0x34, 2, []⟩ := by
  decide +kernel

/-- spec/95_test_vectors.md: SF-12. -/
theorem test_cld :
  after { start 0x8000 [0xD8] with p := Flags.unpack 0x38 } =
      some ⟨0x00, 0x00, 0x00, 0xFF, 0x8001, 0x30, 2, []⟩ := by
  decide +kernel

/-- spec/95_test_vectors.md: SF-13. -/
theorem test_sed :
  after (start 0x8000 [0xF8]) = some ⟨0x00, 0x00, 0x00, 0xFF, 0x8001, 0x38, 2, []⟩ := by
  decide +kernel

/-- spec/95_test_vectors.md: SF-14. -/
theorem test_clv :
  after { start 0x8000 [0xB8] with p := Flags.unpack 0x70 } =
      some ⟨0x00, 0x00, 0x00, 0xFF, 0x8001, 0x30, 2, []⟩ := by
  decide +kernel

/-- spec/95_test_vectors.md: SF-15, SF-16. -/
theorem test_brk :
  after { start 0x8000 [0x00, 0xFF] with
    p := Flags.unpack 0x33 } =
      some ⟨0x00, 0x00, 0x00, 0xFC, 0xA000, 0x37, 7, [.write 0x01FF 0x80, .write 0x01FE 0x02, .write 0x01FD 0x33]⟩ ∧
  after { start 0x8000 [0x00, 0x00] with
    p := Flags.unpack 0x34 } =
      some ⟨0x00, 0x00, 0x00, 0xFC, 0xA000, 0x34, 7, [.write 0x01FF 0x80, .write 0x01FE 0x02, .write 0x01FD 0x34]⟩ := by
  decide +kernel

/-- spec/95_test_vectors.md: SF-17. -/
theorem test_rti :
  after { start 0x8000 [0x40] with sp := 0xFC, ram := [(0x1FD, 0xC3), (0x1FE, 0x34), (0x1FF, 0x12)] } =
      some ⟨0x00, 0x00, 0x00, 0xFF, 0x1234, 0xE3, 6, []⟩ := by
  decide +kernel

/-- spec/95_test_vectors.md: SF-18. -/
theorem test_nop :
  after (start 0x8000 [0xEA]) = some ⟨0x00, 0x00, 0x00, 0xFF, 0x8001, 0x30, 2, []⟩ := by
  decide +kernel

/-- spec/95_test_vectors.md: SF-19, SF-20. -/
theorem test_undef :
  after (start 0x8000 [0x02, 0x11, 0x22]) = some ⟨0x00, 0x00, 0x00, 0xFF, 0x8001, 0x30, 2, []⟩ ∧
  after { start 0x8000 [0xA7, 0x10] with ram := [(0x10, 0x99)] } =
      some ⟨0x00, 0x00, 0x00, 0xFF, 0x8001, 0x30, 2, []⟩ := by
  decide +kernel

/-- spec/95_test_vectors.md: BUS-1, BUS-2, BUS-3, BUS-4, BUS-6, BUS-7, BUS-8, BUS-9. -/
theorem test_bus_lda :
  after { start 0x8000 [0xAD, 0x00, 0x18] with ram := [(0x0, 0x5C)] } =
      some ⟨0x5C, 0x00, 0x00, 0xFF, 0x8003, 0x30, 4, []⟩ ∧
  after { start 0x8000 [0xAD, 0x08, 0x20] with ppu := { PpuRegs.zero with ctrl := 0x91 } } =
      some ⟨0x91, 0x00, 0x00, 0xFF, 0x8003, 0xB0, 4, []⟩ ∧
  after { start 0x8000 [0xAD, 0xFF, 0x3F] with ppu := { PpuRegs.zero with data := 0x17 } } =
      some ⟨0x17, 0x00, 0x00, 0xFF, 0x8003, 0x30, 4, []⟩ ∧
  after { start 0x8000 [0xAD, 0x16, 0x40] with a := 0xFF } =
      some ⟨0x00, 0x00, 0x00, 0xFF, 0x8003, 0x32, 4, []⟩ ∧
  after { start 0x8000 [0xAD, 0x00, 0x50] with a := 0xFF } =
      some ⟨0x00, 0x00, 0x00, 0xFF, 0x8003, 0x32, 4, []⟩ ∧
  after { start 0x8000 [0xAD, 0xFF, 0x7F] with a := 0xFF } =
      some ⟨0x00, 0x00, 0x00, 0xFF, 0x8003, 0x32, 4, []⟩ ∧
  after { start 0x8000 [0xAD, 0x00, 0xC0] with params := { Params.defaults 2 with prgBanks := 1 } } =
      some ⟨0xAD, 0x00, 0x00, 0xFF, 0x8003, 0xB0, 4, []⟩ ∧
  after (startWith 0x8000 [0xAD, 0x00, 0xC0] (0x4000, 0x3C)) =
      some ⟨0x3C, 0x00, 0x00, 0xFF, 0x8003, 0x30, 4, []⟩ := by
  decide +kernel

/-- spec/95_test_vectors.md: BUS-5. -/
theorem test_bus_sta :
  after { start 0x8000 [0x8D, 0x14, 0x40] with a := 0x02 } =
      some ⟨0x02, 0x00, 0x00, 0xFF, 0x8003, 0x30, 4, [.write 0x4014 0x02]⟩ := by
  decide +kernel

/-- spec/95_test_vectors.md: BUS-10. -/
theorem test_bus_inc :
  after { start 0x8000 [0xEE, 0x05, 0x20] with ppu := { PpuRegs.zero with scroll := 0x7F } } =
      some ⟨0x00, 0x00, 0x00, 0xFF, 0x8003, 0xB0, 6, [.write 0x2005 0x80]⟩ := by
  decide +kernel

/-- spec/95_test_vectors.md, AM-15: the whole trace. -/
theorem test_trace_am_15 :
  accesses (start 0x8000 [0xE8]) = some [.read 0x8000 0xE8, .read 0x8001 0x00, .read 0x8002 0x00] := by
  decide +kernel

/-- spec/95_test_vectors.md, AM-16: the whole trace. -/
theorem test_trace_am_16 :
  accesses { start 0x8000 [0xA1, 0x20] with
    x := 0x04, ram := [(0x25, 0x02), (0x200, 0xAB)] } =
      some [.read 0x8000 0xA1, .read 0x8001 0x20, .read 0x8002 0x00, .read 0x0024 0x00, .read 0x0025 0x02, .read 0x0200 0xAB] := by
  decide +kernel

/-- spec/95_test_vectors.md, BUS-10: the whole trace. -/
theorem test_trace_bus_10 :
  accesses { start 0x8000 [0xEE, 0x05, 0x20] with
    ppu := { PpuRegs.zero with scroll := 0x7F } } =
      some [.read 0x8000 0xEE, .read 0x8001 0x05, .read 0x8002 0x20, .read 0x2005 0x7F, .write 0x2005 0x80] := by
  decide +kernel

/-- spec/95_test_vectors.md, SF-21: the fetch and PC wrap at 0xFFFF. -/
theorem test_trace_sf_21 :
    accesses { start 0xFFFF [] with prg := [(0x7FFF, 0xEA)] } =
      some [.read 0xFFFF 0xEA, .read 0x0000 0x00, .read 0x0001 0x00] := by
  decide +kernel

/-! ## One tick: services and entries -/

/-- The latches after one tick: reset, NMI, IRQ. -/
def latches (s : State) : Option (Bool × Bool × Bool) :=
  (nextState (step s)).map fun t => (t.resetReq, t.nmiReq, t.irqReq)

/-- spec/95_test_vectors.md, IR-2, tick 1: reset before NMI and IRQ. -/
theorem test_reset_service :
    let s := { start 0x9000 [] with
      resetReq := true, nmiReq := true, irqReq := true, p := Flags.unpack 0x34 }
    after s = some ⟨0, 0, 0, 0xFF, 0x8000, 0x34, 0, []⟩ ∧ latches s = some (false, true, true) ∧
      accesses s = some [.read 0xFFFC 0x00, .read 0xFFFD 0x80] := by
  decide +kernel

/-- spec/95_test_vectors.md, IR-2, tick 2: NMI entry with I = 1. -/
theorem test_nmi_entry :
    let s := { start 0x8000 [] with nmiReq := true, irqReq := true, p := Flags.unpack 0x34 }
    after s = some ⟨0, 0, 0, 0xFC, 0x9000, 0x34, 0,
      [.write 0x01FF 0x80, .write 0x01FE 0x00, .write 0x01FD 0x24]⟩ ∧
      latches s = some (false, false, true) := by
  decide +kernel

/-- spec/95_test_vectors.md, IR-2, tick 4: IRQ entry with I = 0. -/
theorem test_irq_entry :
    let s := { start 0x9001 [] with irqReq := true, sp := 0xFC, p := Flags.unpack 0x30 }
    after s = some ⟨0, 0, 0, 0xF9, 0xA000, 0x34, 0,
      [.write 0x01FC 0x90, .write 0x01FB 0x01, .write 0x01FA 0x20]⟩ ∧
      latches s = some (false, false, false) := by
  decide +kernel

/-- spec/95_test_vectors.md, IR-2, tick 3: an IRQ masked by I = 1 at the start of the tick waits. -/
theorem test_irq_masked :
    let s := { start 0x9000 [0x58] with irqReq := true, p := Flags.unpack 0x34 }
    after s = some ⟨0, 0, 0, 0xFF, 0x9001, 0x30, 2, []⟩ ∧ latches s = some (false, false, true) := by
  decide +kernel

/-- The assembler syntax of R88, and its offset byte at both ends of the range. -/
theorem test_asm :
    asm 0x8000 (.lda (.mem (.indY 0x40))) = some "LDA ($40),Y" ∧
    asm 0x8000 (.jmpInd 0x02FF) = some "JMP ($02FF)" ∧
    asm 0x8000 (.asl .acc) = some "ASL A" ∧ asm 0x8000 (.undef 0x02) = none ∧
    branchOffset 0x8000 0x8081 = some 0x7F ∧ branchOffset 0x8000 0x7F82 = some 0x80 ∧
    branchOffset 0x8000 0x8082 = none ∧ branchOffset 0x8000 0x7F81 = none := by
  decide +kernel

/-- The bus at both ends of every region (R51). -/
theorem test_bus_regions :
    let s : State := { State.reset with
      ram := [(0, 0x11), (0x7FF, 0x12)], ppu := { PpuRegs.zero with ctrl := 0x21, data := 0x22 }
      prg := [(0, 0x31), (0x7FFF, 0x32)] }
    [0x0000, 0x07FF, 0x0800, 0x1FFF, 0x2000, 0x2007, 0x2008, 0x3FFF, 0x4000, 0x401F, 0x4020, 0x5FFF,
      0x6000, 0x7FFF, 0x8000, 0xFFFF].map s.peek =
    [0x11, 0x12, 0x11, 0x12, 0x21, 0x22, 0x21, 0x22, 0x00, 0x00, 0x00, 0x00, 0x00, 0x00, 0x31, 0x32] := by
  decide +kernel

/-! ## Witnesses: states and operands that meet the hypotheses of each statement -/

/-- An outcome that has a next state. -/
theorem goesOn {o : Host.Outcome State Fault Refusal} (h : (nextState o).isSome = true) :
    ∃ t, o = .next t := by
  cases o with
  | next t => exact ⟨t, rfl⟩
  | fault f => exact absurd h Bool.false_ne_true
  | refused r => exact absurd h Bool.false_ne_true

/-- A state with every kind of field off its default: no request, C, D and B set. -/
def sample : State :=
  { a := 0x42, x := 0x10, y := 0xFF, sp := 0x00, pc := 0xC000
    p := { n := true, v := false, b := true, d := true, i := false, z := false, c := true }
    resetReq := false, nmiReq := false, irqReq := false
    ram := [(0x00, 0x03), (0xFF, 0x80), (0x1FF, 0x60)], ppu := { PpuRegs.zero with data := 0x7E }
    prg := [(0, 0xA5), (1, 0xFF), (0x3FFB, 0xC1), (0x3FFD, 0xC0), (0x3FFF, 0xC2)]
    params := { Params.defaults 1 with envWritesRam := true }, cycles := 3, trace := [] }

/-- A well-formed cartridge of one bank, with the environment's RAM writes allowed. -/
def cart : Construction :=
  { params := { Params.defaults 1 with envWritesRam := true }
    prg := List.replicate 16384 0xEA, ram0 := Vector.replicate 2048 0
    ppuBuffer := Vector.replicate 256 0, powerOn := PowerOnRegs.zero }

theorem test_cart_constructs : construct cart = .next (powerOn cart) := by
  unfold construct
  rw [if_pos]
  have h : cart.prg.length = 16384 := List.length_replicate
  unfold Construction.cartridgeOk
  rw [h]
  decide +kernel

theorem test_witness_inv : sample.Inv := by decide

theorem test_witness_decodingAnEncoding : (Instr.ldx (.mem (.absY 0xFFFF))).wellFormed = true ∧
    (Instr.undef 0xFF).wellFormed = true := by decide

theorem test_witness_cycleCount :
    (Instr.sta (.absX 0xFFFF)).opcode = some 0x9D ∧
    ∃ t, exec (.sta (.absX 0xFFFF)) sample = .next t := ⟨by decide, _, rfl⟩

theorem test_witness_stepRuns : NoRequest sample ∧
    NoRequest { sample with irqReq := true, p := { sample.p with i := true } } := by decide

/-- PC in PRG, at the wrap, at the end of the PPU registers, and in a stub window. -/
theorem test_witness_placedWord :
    decodeTableWord 24 0x02F09D = some (.sta (.absX 0x02F0)) ∧
    decodeTableWord 8 0xA5 = some (.lda (.mem (.zp 0))) ∧
    sample.Inv ∧ { sample with pc := 0xFFFF }.Inv ∧ { sample with pc := 0x3FFE }.Inv ∧
    { sample with pc := 0x5000 }.Inv := by decide

theorem test_witness_reset : { sample with resetReq := true }.resetReq = true := rfl

theorem test_witness_nmi :
    let s := { sample with nmiReq := true }
    s.Inv ∧ s.resetReq = false ∧ s.nmiReq = true := by decide

theorem test_witness_irq :
    let s := { sample with irqReq := true }
    s.Inv ∧ s.resetReq = false ∧ s.nmiReq = false ∧ s.irqReq = true ∧ s.p.i = false := by decide

/-- Each of the three clauses of `EachTickClearsOnlyTheLatchItServices`, and every statement about a
next state of `step` (invariant, PRG and parameters, counts). -/
theorem test_witness_step :
    (∃ t, step { sample with resetReq := true, nmiReq := true } = .next t) ∧
    (∃ t, step { sample with nmiReq := true, irqReq := true } = .next t) ∧
    (∃ t, step { sample with irqReq := true } = .next t) ∧
    (∃ t, step sample = .next t) :=
  ⟨goesOn (by decide +kernel), goesOn (by decide +kernel), goesOn (by decide +kernel),
    goesOn (by decide +kernel)⟩

theorem test_witness_notNoRequest : ¬ NoRequest { sample with irqReq := true } ∧
    sample.params.pagePenaltyScope = .readsOnly := by decide

theorem test_witness_threePending :
    let s := { sample with resetReq := true, nmiReq := true, irqReq := true }
    s.Inv ∧ s.resetReq = true ∧ s.nmiReq = true ∧ s.irqReq = true := by decide

/-- A cartridge of no bank, and one a byte short, are refused. -/
theorem test_witness_badCartridge :
    construct { cart with params := Params.defaults 0 } = .refused .badCartridge ∧
    construct { cart with prg := [0xEA] } = .refused .badCartridge :=
  ⟨if_neg (by decide +kernel), if_neg (by decide +kernel)⟩

theorem test_witness_breakAndOutputs :
    SameButBreakAndOutputs sample { sample with p := { sample.p with b := false }, cycles := 0 } := rfl

/-- Each of the three clauses of `DecimalFlagChangesNoResult`, with SP at the wrap for PHP and BRK. -/
theorem test_witness_decimal :
    let s' := { sample with p := { sample.p with d := false } }
    SameButDecimal sample s' ∧ sample.Inv ∧ (Instr.adc (.imm 0x58)).mnemonic ∉ ["PHP", "BRK"] ∧
    ∀ i ∈ [.adc (.imm 0x58), .php, .brk 0xEE], (∃ t, exec i sample = .next t) ∧ ∃ t, exec i s' = .next t := by
  refine ⟨rfl, by decide, by decide, fun i hi => ?_⟩
  simp only [List.mem_cons, List.not_mem_nil, or_false] at hi
  rcases hi with rfl | rfl | rfl <;> exact ⟨⟨_, rfl⟩, _, rfl⟩

/-- Each region's clause of the read and the write at the ends of its range. -/
theorem test_witness_regions :
    (0x1FFF : Word).toNat ≤ 0x1FFF ∧ 0x2000 ≤ (0x2000 : Word).toNat ∧ (0x3FFF : Word).toNat ≤ 0x3FFF ∧
    0x4000 ≤ (0x4000 : Word).toNat ∧ (0x7FFF : Word).toNat ≤ 0x7FFF ∧ 0x8000 ≤ (0x8000 : Word).toNat ∧
    0x8000 ≤ (0xFFFF : Word).toNat := by decide

/-- The last cell through its last mirror, and that the statement's clause holds there. -/
theorem test_witness_mirrors :
    (memWrite (BitVec.ofNat 16 (0x7FF + 0x800 * 3)) 0xA1 sample).peek (BitVec.ofNat 16 0x7FF) = 0xA1 ∧
    (memWrite (BitVec.ofNat 16 (0x2000 + 7 + 8 * 1023)) 0xA2 sample).peek 0x2007 = 0xA2 := by
  decide +kernel

theorem test_witness_prgWindow :
    sample.params.prgBanks = 1 ∧ 0x8000 ≤ (0xBFFF : Word).toNat ∧ (0xBFFF : Word).toNat ≤ 0xBFFF ∧
    2 ≤ { sample with params := Params.defaults 2 }.params.prgBanks := by decide

/-- The invariant with SP at both ends of the stack page: a push wraps at 0x00, a pop at 0xFF. -/
theorem test_witness_stack : { sample with sp := 0x00 }.Inv ∧ { sample with sp := 0xFF }.Inv := by decide

theorem test_witness_jsrRts : sample.Inv ∧
    ∃ t u, exec (.jsr 0xFFFF) sample = .next t ∧ exec .rts t = .next u :=
  ⟨by decide, _, _, rfl, rfl⟩

/-- Both ways into a handler. -/
theorem test_witness_rtiUndoes :
    (let s := { sample with nmiReq := true }
     s.Inv ∧ s.resetReq = false ∧ (s.nmiReq = true ∨ (s.irqReq = true ∧ s.p.i = false)) ∧
      ∃ t u, step s = .next t ∧ exec .rti t = .next u) ∧
    (let s := { sample with irqReq := true }
     s.Inv ∧ s.resetReq = false ∧ (s.nmiReq = true ∨ (s.irqReq = true ∧ s.p.i = false)) ∧
      ∃ t u, step s = .next t ∧ exec .rti t = .next u) :=
  ⟨⟨by decide, rfl, .inl rfl, _, _, rfl, rfl⟩, ⟨by decide, rfl, .inr ⟨rfl, rfl⟩, _, _, rfl, rfl⟩⟩

/-- For the three statements about what an instruction can write. -/
theorem test_witness_exec :
    (∃ t, exec (.inc (.zp 0x00)) sample = .next t) ∧ (∃ t, exec .pla sample = .next t) ∧
    ∃ t, exec (.bpl 0x80) sample = .next t := ⟨⟨_, rfl⟩, ⟨_, rfl⟩, ⟨_, rfl⟩⟩

theorem test_witness_requests :
    (∃ t, envStep .requestIrq sample = some t) ∧ (∃ t, envStep .requestNmi sample = some t) ∧
    ∃ t, envStep .requestReset sample = some t := ⟨⟨_, rfl⟩, ⟨_, rfl⟩, ⟨_, rfl⟩⟩

/-- Both values of `ENV_WRITES_RAM`, and a state that meets the invariant. -/
theorem test_witness_environmentWrites :
    sample.params.envWritesRam = true ∧ sample.Inv ∧ (Params.defaults 1).envWritesRam = false := by decide

/-- The hypothesis of `PowerOnThenFirstTick`, and both ends of the PRG window. -/
theorem test_witness_powerOn : construct cart = .next (powerOn cart) ∧
    0x8000 ≤ (0x8000 : Word).toNat ∧ 0x8000 ≤ (0xFFFF : Word).toNat :=
  ⟨test_cart_constructs, by decide⟩

theorem test_witness_interleaving :
    sample.Inv ∧
    ∀ e ∈ [Event.tick, .env .requestNmi, .env (.ppuWrite 2 0x80), .env (.ramWrite 0 1), .tick],
      allowed sample.params e = true := by decide

/-- R272, with JMP 0x8003 and then NOPs: the run to 0x8004 passes the boundary at 0x8003 and ends at
the second tick, with one event left; a run from `E` ends at once; an interleaving that does not
reach `E` has no end; a run to the NMI handler ends right after the entry; at `E` with a latch set
the run has not ended. -/
theorem test_runToEnd :
    let s := start 0x8000 [0x4C, 0x03, 0x80, 0xEA, 0xEA]
    let ended := fun (e : Word) (es : List Event) => (runToEnd e es s).map fun r => (r.1.pc, r.2.length)
    ended 0x8004 [.tick, .tick, .tick] = some (0x8004, 1) ∧
    ended 0x8000 [.tick] = some (0x8000, 1) ∧
    ended 0x8004 [.tick] = none ∧
    ended 0x9000 [.env .requestNmi, .tick, .tick] = some (0x9000, 1) ∧
    runToEnd 0x8000 [] { s with irqReq := true } = none := by
  decide +kernel

/-- R13: a two-byte write at 0xFFFF is discarded there and stores its high byte at 0x0000; one at
0x17FF stores its low byte in RAM cell 0x7FF and its high byte in cell 0. -/
theorem test_memWrite16 :
    (memWrite16 0xFFFF 0x1234 sample).ram = [(0x00, 0x12), (0xFF, 0x80), (0x1FF, 0x60)] ∧
    (memWrite16 0x17FF 0x1234 sample).ram =
      [(0x00, 0x12), (0xFF, 0x80), (0x1FF, 0x60), (0x7FF, 0x34)] ∧
    (memWrite16 0x17FF 0x1234 sample).trace = [.write 0x17FF 0x34, .write 0x1800 0x12] := by
  decide +kernel

/-- The reset state of the host: the first step services the reset, and a placed word runs at once
(log entry 6). -/
theorem test_reset_then_placed :
    after State.reset = some ⟨0, 0, 0, 0xFF, 0x0000, 0x34, 0, []⟩ ∧
    after (State.reset.withFetchWord 16 0x80A9) =
      some ⟨0x80, 0, 0, 0xFF, 0x0002, 0xB4, 2, []⟩ := by decide +kernel

end Sys2Proof.Tests.Slice0
end

section
/-!
PROOFS. The statements of spec/00_scope.md: every tick completes and keeps what a run relies on
(R14, R36, R59), the counts a tick reports (R9, R120), the interleavings of ticks with the
environment's steps (R66, R272), and the states a run begins in (R271).

What a tick keeps is one relation, `State.Keeps`. Each shared operation keeps it, so each
instruction does; `GoesOn` adds that the outcome is a next state, and every event of an interleaving
then goes on.
-/

open Sys2Proof Sys2Proof.Machine Sys2Proof.Statement

namespace Sys2Proof.Machine

/-! ### What every operation keeps -/

/-- What an operation of the machine from `s` to `t` keeps: PRG and the parameters are those of `s`,
and the invariant holds in `t` if it holds in `s`. -/
def State.Keeps (s t : State) : Prop :=
  t.prg = s.prg ∧ t.params = s.params ∧ (s.Inv → t.Inv)

@[simp] theorem State.Keeps.refl (s : State) : s.Keeps s := ⟨rfl, rfl, id⟩

theorem State.Keeps.trans {s t u : State} (h : s.Keeps t) (h' : t.Keeps u) : s.Keeps u := by
  obtain ⟨hprg, hparams, hinv⟩ := h
  obtain ⟨hprg', hparams', hinv'⟩ := h'
  exact ⟨hprg'.trans hprg, hparams'.trans hparams, hinv' ∘ hinv⟩

theorem State.Keeps.params {s t : State} (h : s.Keeps t) : t.params = s.params := h.2.1

section
variable {s t : State}

@[simp] theorem keeps_withA {v : Byte} : s.Keeps (t.withA v) ↔ s.Keeps t := Iff.rfl
@[simp] theorem keeps_withX {v : Byte} : s.Keeps (t.withX v) ↔ s.Keeps t := Iff.rfl
@[simp] theorem keeps_withY {v : Byte} : s.Keeps (t.withY v) ↔ s.Keeps t := Iff.rfl
@[simp] theorem keeps_withSp {v : Byte} : s.Keeps (t.withSp v) ↔ s.Keeps t := Iff.rfl
@[simp] theorem keeps_withPc {w : Word} : s.Keeps (t.withPc w) ↔ s.Keeps t := Iff.rfl
@[simp] theorem keeps_withFlags {f : Flags} : s.Keeps (t.withFlags f) ↔ s.Keeps t := Iff.rfl
@[simp] theorem keeps_setZN {r : Byte} : s.Keeps (t.setZN r) ↔ s.Keeps t := Iff.rfl
@[simp] theorem keeps_withCycles {n : Cycles} : s.Keeps (t.withCycles n) ↔ s.Keeps t := Iff.rfl
@[simp] theorem keeps_resetReq {b : Bool} : s.Keeps { t with resetReq := b } ↔ s.Keeps t := Iff.rfl
@[simp] theorem keeps_nmiReq {b : Bool} : s.Keeps { t with nmiReq := b } ↔ s.Keeps t := Iff.rfl
@[simp] theorem keeps_irqReq {b : Bool} : s.Keeps { t with irqReq := b } ↔ s.Keeps t := Iff.rfl
@[simp] theorem keeps_logged {acc : Access} : s.Keeps (t.logged acc) ↔ s.Keeps t := Iff.rfl

@[simp] theorem State.Keeps.memWrite (h : s.Keeps t) (a : Word) (v : Byte) :
    s.Keeps (memWrite a v t) :=
  h.trans ⟨memWrite_prg .., memWrite_params .., fun hinv => hinv.memWrite a v⟩

@[simp] theorem State.Keeps.push (h : s.Keeps t) (v : Byte) : s.Keeps (push v t) :=
  h.memWrite _ _

@[simp] theorem State.Keeps.push16 (h : s.Keeps t) (w : Word) : s.Keeps (push16 w t) :=
  (h.push _).push _

@[simp] theorem State.Keeps.enterHandler (h : s.Keeps t) (vector ret : Word) (b : Bool) :
    s.Keeps (enterHandler vector ret b t) := by
  simp [Machine.enterHandler, memRead16, h]

end

@[simp] theorem keeps_readMem (m : MemMode) (s : State) : s.Keeps (readMem m s).2 := by
  rw [readMem_eq]; exact ⟨rfl, rfl, id⟩

@[simp] theorem keeps_readOperand (o : ReadMode) (s : State) : s.Keeps (readOperand o s).2 := by
  cases o with
  | imm v => exact .refl s
  | mem m => exact keeps_readMem m s

@[simp] theorem keeps_writeMem (m : MemMode) (v : Byte) (s : State) : s.Keeps (writeMem m v s) := by
  rw [writeMem_eq]
  exact State.Keeps.memWrite ⟨rfl, rfl, id⟩ _ _

@[simp] theorem keeps_modifyMem (m : MemMode) (f : Byte → Byte) (s : State) :
    s.Keeps (modifyMem m f s).2 :=
  (keeps_readMem m s).memWrite _ _

@[simp] theorem keeps_modifyShift (o : ShiftMode) (f : Byte → Byte) (s : State) :
    s.Keeps (modifyShift o f s).2 := by
  cases o with
  | acc => exact .refl s
  | mem m => exact keeps_modifyMem m f s

/-! ### Every instruction and every tick goes on -/

/-- From `s` the outcome `o` goes on in a next state that keeps what `State.Keeps` says. -/
def GoesOn (s : State) (o : Host.Outcome State Fault Refusal) : Prop :=
  ∃ t : State, o = .next t ∧ s.Keeps t

@[simp] theorem goesOn_next {s t : State} : GoesOn s (.next t) ↔ s.Keeps t := by
  simp [GoesOn]

@[simp] theorem goesOn_retire {s t : State} {n : Nat} {c : Cycles} :
    GoesOn s (retire n c t) ↔ s.Keeps t := by
  simp [retire]

@[simp] theorem goesOn_transfer {s t : State} {w : Word} {c : Cycles} :
    GoesOn s (transfer w c t) ↔ s.Keeps t := by
  simp [transfer]

/-- Every instruction answers a next state, with PRG, the parameters and the invariant kept: beside
its memory accesses it writes registers, flags and the count only (R14). -/
theorem goesOn_exec (i : Instr) (s : State) : GoesOn s (exec i s) := by
  cases i with
  | lda o | ldx o | ldy o => simp [exec, execLda, execLdx, execLdy]
  | sta m | stx m | sty m => simp [exec, execSta, execStx, execSty]
  | tax | tay | txa | tya | tsx | txs =>
    simp [exec, execTax, execTay, execTxa, execTya, execTsx, execTxs]
  | adc o | sbc o => simp [exec, execAdc, execSbc, addInto]
  | and o | ora o | eor o => simp [exec, execAnd, execOra, execEor]
  | bit m => simp [exec, execBit]
  | cmp o | cpx o | cpy o => simp [exec, execCmp, execCpx, execCpy]
  | inc m | dec m => simp [exec, execInc, execDec]
  | inx | iny | dex | dey => simp [exec, execInx, execIny, execDex, execDey]
  | asl o | lsr o | rol o | ror o => simp [exec, execAsl, execLsr, execRol, execRor]
  | bpl off | bmi off | bvc off | bvs off | bcc off | bcs off | bne off | beq off =>
    simp [exec, execBpl, execBmi, execBvc, execBvs, execBcc, execBcs, execBne, execBeq, branchIf]
  | jmpAbs target | jmpInd ptr => simp [exec, execJmpAbs, execJmpInd]
  | jsr target | rts => simp [exec, execJsr, execRts, pop16_eq]
  | pha | php => simp [exec, execPha, execPhp]
  | pla | plp => simp [exec, execPla, execPlp, pullStatus, pop_eq]
  | clc | sec | cli | sei | cld | sed | clv =>
    simp [exec, execClc, execSec, execCli, execSei, execCld, execSed, execClv]
  | brk pad => simp [exec, execBrk]
  | rti => simp [exec, execRti, returnFromHandler, pullStatus, pop_eq, pop16_eq]
  | nop | undef op => simp [exec, execNop, execUndef]

/-- A tick with no request to service executes an instruction (R100, R102). -/
theorem step_of_noRequest {s : State} (h : NoRequest s) :
    step s = exec (fetchedInstr s) (afterFetch s) := by
  obtain ⟨hreset, hnmi, hirq⟩ := h
  have ht : transitionOf s = .execute := by
    rcases hirq with hirq | hi <;> simp [transitionOf, *]
  simp [step, ht]

/-- A tick with a request to service is one of the three services (R100, R256). -/
theorem step_of_request {s : State} (h : ¬ NoRequest s) :
    step s = .next (serviceReset s) ∨ step s = .next (serviceNmi s) ∨
      step s = .next (serviceIrq s) := by
  cases ht : transitionOf s with
  | reset => simp [step, ht]
  | nmi => simp [step, ht]
  | irq => simp [step, ht]
  | execute =>
    refine absurd ?_ h
    simp only [transitionOf] at ht
    split_ifs at ht
    simp_all

@[simp] theorem keeps_beginTick (s : State) : s.Keeps (beginTick s) := ⟨rfl, rfl, id⟩

theorem keeps_serviceReset (s : State) : s.Keeps (serviceReset s) :=
  keeps_resetReq.2 (by simp [resetService, memRead16])

theorem keeps_serviceNmi (s : State) : s.Keeps (serviceNmi s) :=
  keeps_nmiReq.2 (by simp [interruptEntry])

theorem keeps_serviceIrq (s : State) : s.Keeps (serviceIrq s) :=
  keeps_irqReq.2 (by simp [interruptEntry])

/-- The three fetch reads change no store (R103). -/
theorem keeps_afterFetch (s : State) : s.Keeps (afterFetch s) := by simp [afterFetch, fetch]

/-- Every tick answers a next state, with PRG, the parameters and the invariant kept (R14). -/
theorem goesOn_step (s : State) : GoesOn s (step s) := by
  by_cases h : NoRequest s
  · obtain ⟨t, ht, hk⟩ := goesOn_exec (fetchedInstr s) (afterFetch s)
    exact ⟨t, (step_of_noRequest h).trans ht, (keeps_afterFetch s).trans hk⟩
  · rcases step_of_request h with hs | hs | hs
    · exact ⟨_, hs, keeps_serviceReset s⟩
    · exact ⟨_, hs, keeps_serviceNmi s⟩
    · exact ⟨_, hs, keeps_serviceIrq s⟩

/-! ### Every event and every interleaving goes on -/

/-- An environment step that exists in the run goes on (R70, R271). -/
theorem envStep_of_allowed {a : EnvAction} {s : State} (h : allowed s.params (.env a) = true) :
    ∃ t : State, envStep a s = some t ∧ s.Keeps t := by
  cases a with
  | requestIrq | requestNmi | requestReset | ppuWrite k v =>
    exact ⟨_, rfl, rfl, rfl, id⟩
  | ramWrite k v =>
    refine ⟨_, if_pos h, rfl, rfl, ?_⟩
    rintro ⟨hram, hbelow, hprg⟩
    exact ⟨Memory.wf_write hram _ _, Memory.below_write hbelow k.isLt _, hprg⟩

theorem sysStep_of_allowed {e : Event} {s : State} (h : allowed s.params e = true) :
    ∃ t : State, sysStep e s = some t ∧ s.Keeps t := by
  cases e with
  | tick =>
    obtain ⟨t, ht, hk⟩ := goesOn_step s
    exact ⟨t, by simp [sysStep, nextState, ht], hk⟩
  | env a => exact envStep_of_allowed h

theorem sysRun_of_allowed {es : List Event} {s : State} (h : ∀ e ∈ es, allowed s.params e = true) :
    ∃ t : State, sysRun es s = some t ∧ s.Keeps t := by
  induction es generalizing s with
  | nil => exact ⟨s, rfl, .refl s⟩
  | cons e es ih =>
    obtain ⟨t, ht, hk⟩ := sysStep_of_allowed (h e (List.mem_cons_self ..))
    have hes : ∀ e ∈ es, allowed t.params e = true := fun e he =>
      hk.params ▸ h e (List.mem_cons_of_mem _ he)
    obtain ⟨u, hu, hk'⟩ := ih hes
    exact ⟨u, by simp [ht, hu], hk.trans hk'⟩

/-! ### Where a run to `E` ends -/

theorem atEnd_iff {e : Word} {s : State} :
    atEnd e s = true ↔
      s.pc = e ∧ (s.resetReq, s.nmiReq, s.irqReq) = (false, false, false) := by
  simp [atEnd, and_assoc]

theorem atEnd_eq_false_iff {e : Word} {s : State} :
    atEnd e s = false ↔
      ¬ (s.pc = e ∧ (s.resetReq, s.nmiReq, s.irqReq) = (false, false, false)) := by
  rw [← atEnd_iff, Bool.not_eq_true]

/-- An environment step leads to no end: it moves no PC and clears no latch (R272). -/
theorem atEnd_of_envStep {e : Word} {a : EnvAction} {s t : State} (h : envStep a s = some t)
    (ht : atEnd e t = true) : atEnd e s = true := by
  obtain ⟨hframe, hreset, hnmi, hirq⟩ := envStep_frame h
  obtain ⟨hpc, hlatches⟩ := atEnd_iff.1 ht
  have hpc' : t.pc = s.pc := by rw [hframe]
  refine atEnd_iff.2 ⟨hpc'.symm.trans hpc, ?_⟩
  simp only [Prod.mk.injEq, ← Bool.not_eq_true] at hlatches ⊢
  obtain ⟨hr, hn, hi⟩ := hlatches
  exact ⟨mt hreset hr, mt hnmi hn, mt hirq hi⟩

/-- Before the events of `done` are all consumed, `atEnd` accepts no state of the run from `s`. -/
def NoEarlierEnd (e : Word) (done : List Event) (s : State) : Prop :=
  ∀ (p q : List Event) (u : State), done = p ++ q → q ≠ [] → sysRun p s = some u →
    atEnd e u = false

theorem noEarlierEnd_nil (e : Word) (s : State) : NoEarlierEnd e [] s := by
  intro p q u h hq
  exact absurd (List.append_eq_nil_iff.1 h.symm).2 hq

/-- One more event in front: its start must be no end either. -/
theorem noEarlierEnd_cons {e : Word} {v : Event} {done : List Event} {s t : State}
    (hv : sysStep v s = some t) :
    NoEarlierEnd e (v :: done) s ↔ atEnd e s = false ∧ NoEarlierEnd e done t := by
  constructor
  · intro h
    refine ⟨h [] (v :: done) s rfl (by simp) rfl, fun p q u hd hq hu => ?_⟩
    exact h (v :: p) q u (by simp [hd]) hq (by simp [hv, hu])
  · rintro ⟨hs, h⟩ p q u hd hq hu
    cases p with
    | nil =>
      cases hu
      exact hs
    | cons w p =>
      obtain ⟨rfl, hd'⟩ := List.cons.inj hd
      exact h p q u hd' hq (by simpa [hv] using hu)

/-- A run to `E` ends at the first state `atEnd` accepts (R272). -/
theorem runToEnd_eq_some_iff (e : Word) (es rest : List Event) (s t : State) :
    runToEnd e es s = some (t, rest) ↔
      ∃ done : List Event, es = done ++ rest ∧ sysRun done s = some t ∧ atEnd e t = true ∧
        NoEarlierEnd e done s := by
  constructor
  · intro h
    induction es generalizing s with
    | nil =>
      obtain ⟨hs, h⟩ := Option.ite_none_right_eq_some.1 h
      cases h
      exact ⟨[], rfl, rfl, hs, noEarlierEnd_nil e _⟩
    | cons v es ih =>
      cases hs : atEnd e s with
      | true =>
        rw [runToEnd_of_atEnd hs] at h
        cases h
        exact ⟨[], rfl, rfl, hs, noEarlierEnd_nil e _⟩
      | false =>
        rw [runToEnd_cons hs] at h
        obtain ⟨u, hv, hu⟩ := Option.bind_eq_some_iff.1 h
        obtain ⟨done, rfl, hrun, ht, hno⟩ := ih u hu
        exact ⟨v :: done, rfl, by simp [hv, hrun], ht, (noEarlierEnd_cons hv).2 ⟨hs, hno⟩⟩
  · rintro ⟨done, rfl, hrun, ht, hno⟩
    induction done generalizing s with
    | nil =>
      cases hrun
      exact runToEnd_of_atEnd ht rest
    | cons v done ih =>
      obtain ⟨u, hv, hu⟩ := Option.bind_eq_some_iff.1 hrun
      obtain ⟨hs, hno'⟩ := (noEarlierEnd_cons hv).1 hno
      rw [List.cons_append, runToEnd_cons hs, hv]
      exact ih u hu hno'

/-- A beginning that leads to the first state `atEnd` accepts is empty or ends with a tick, for an
environment step leads there only from a state that `atEnd` accepts already (R272). -/
theorem eq_nil_or_ends_with_tick {e : Word} {done : List Event} {s t : State}
    (hrun : sysRun done s = some t) (ht : atEnd e t = true) (hno : NoEarlierEnd e done s) :
    done = [] ∨ ∃ before : List Event, done = before ++ [Event.tick] := by
  rcases List.eq_nil_or_concat' done with rfl | ⟨before, v, rfl⟩
  · exact .inl rfl
  · cases v with
    | tick => exact .inr ⟨before, rfl⟩
    | env a =>
      rw [sysRun_append] at hrun
      obtain ⟨u, hu, hlast⟩ := Option.bind_eq_some_iff.1 hrun
      obtain ⟨w, hstep, hw⟩ := Option.bind_eq_some_iff.1 hlast
      cases hw
      have hnot := hno before [.env a] u rfl (by simp) hu
      exact absurd (atEnd_of_envStep hstep ht) (by simp [hnot])

/-- Settles O60: every event goes on because every operation keeps what `State.Keeps` says, every
interleaving by induction on its events, and `runToEnd` stops at the first state `atEnd` accepts. -/
theorem everyInterleavingGoesOn : Obligations.EveryInterleavingGoesOn := by
  refine ⟨fun e s hs hall => ?_, fun es s hs hall => ?_, fun e es rest s t => ?_⟩
  · obtain ⟨t, ht, hprg, hparams, hinv⟩ := sysStep_of_allowed hall
    exact ⟨t, ht, hinv hs, hprg, hparams⟩
  · obtain ⟨t, ht, hprg, hparams, hinv⟩ := sysRun_of_allowed hall
    exact ⟨t, ht, hinv hs, hprg, hparams⟩
  · refine (runToEnd_eq_some_iff e es rest s t).trans (exists_congr fun done => ?_)
    constructor
    · rintro ⟨hes, hrun, ht, hno⟩
      obtain ⟨hpc, hlatches⟩ := atEnd_iff.1 ht
      exact ⟨hes, hrun, hpc, hlatches, eq_nil_or_ends_with_tick hrun ht hno,
        fun p q u hd hq hu => atEnd_eq_false_iff.1 (hno p q u hd hq hu)⟩
    · rintro ⟨hes, hrun, hpc, hlatches, -, hno⟩
      exact ⟨hes, hrun, atEnd_iff.2 ⟨hpc, hlatches⟩,
        fun p q u hd hq hu => atEnd_eq_false_iff.2 (hno p q u hd hq hu)⟩

/-- Settles O14, by the outcome of every instruction and of every tick. -/
theorem everyTickCompletes : Obligations.EveryTickCompletes := by
  refine ⟨fun i s => ?_, fun s => ?_⟩
  · obtain ⟨t, ht, -⟩ := goesOn_exec i s
    exact ⟨t, ht⟩
  · obtain ⟨t, ht, -⟩ := goesOn_step s
    exact ⟨t, ht⟩

/-! ### The counts a tick reports -/

/-- Every fetch decodes to a row of the table: the 256 opcode bytes one by one, whatever the
operand bytes (R84, R85). -/
theorem decode_wellFormed (op l h : Byte) : (decode op l h).wellFormed = true := by
  obtain ⟨n, hn, rfl⟩ : ∃ n < 256, op = BitVec.ofNat 8 n := ⟨op.toNat, op.isLt, by simp⟩
  interval_cases n <;> rfl

/-- The instruction a tick executes is a row of the table (R102). -/
theorem fetchedInstr_wellFormed (s : State) : (fetchedInstr s).wellFormed = true :=
  decode_wellFormed _ _ _

/-- The count an instruction reports, by its class (R84, R120 to R123). -/
def instrCost (s : State) : Instr → Cycles
  | .lda o | .ldx o | .ldy o | .adc o | .sbc o | .and o | .ora o | .eor o
  | .cmp o | .cpx o | .cpy o => readCost o s
  | .bit m => readCost (.mem m) s
  | .sta m | .stx m | .sty m => writeCost m s
  | .inc m | .dec m => rmwCost m s
  | .asl o | .lsr o | .rol o | .ror o => shiftCost o s
  | .bpl off => branchCost (!s.p.n) (s.pc + 2) off
  | .bmi off => branchCost s.p.n (s.pc + 2) off
  | .bvc off => branchCost (!s.p.v) (s.pc + 2) off
  | .bvs off => branchCost s.p.v (s.pc + 2) off
  | .bcc off => branchCost (!s.p.c) (s.pc + 2) off
  | .bcs off => branchCost s.p.c (s.pc + 2) off
  | .bne off => branchCost (!s.p.z) (s.pc + 2) off
  | .beq off => branchCost s.p.z (s.pc + 2) off
  | .jmpAbs _ | .pha | .php => 3
  | .pla | .plp => 4
  | .jmpInd _ => 5
  | .jsr _ | .rts | .rti => 6
  | .brk _ => 7
  | .tax | .tay | .txa | .tya | .tsx | .txs | .inx | .iny | .dex | .dey => 2
  | .clc | .sec | .cli | .sei | .cld | .sed | .clv | .nop | .undef _ => 2

theorem exec_cycles {i : Instr} {s t : State} (h : exec i s = .next t) :
    t.cycles = instrCost s i := by
  cases i <;> (cases h; rfl)

/-- A count is at least 2 and at most 8, and at most 7 under `reads_only`. -/
def CountInBounds (scope : PenaltyScope) (c : Cycles) : Prop :=
  2 ≤ c.toNat ∧ c.toNat ≤ 8 ∧ (scope = .readsOnly → c.toNat ≤ 7)

theorem countInBounds_of_le_seven {scope : PenaltyScope} {c : Cycles}
    (h : 2 ≤ c.toNat ∧ c.toNat ≤ 7) : CountInBounds scope c :=
  ⟨h.1, by omega, fun _ => h.2⟩

/-- A count of at most 8 with an extra cycle is a sum of naturals: the 64 bits do not wrap. -/
theorem toNat_add_extra {c : Cycles} (h : c.toNat ≤ 8) (b : Bool) :
    (c + extra b).toNat = c.toNat + b.toNat := by
  cases b
  · simp [extra]
  · simp only [extra, if_true, Bool.toNat_true]; bv_omega

theorem readBase_bounds (m : MemMode) : 2 ≤ (readBase m).toNat ∧ (readBase m).toNat ≤ 6 := by
  cases m <;> simp [readBase]

theorem writeBase_bounds (m : MemMode) : 2 ≤ (writeBase m).toNat ∧ (writeBase m).toNat ≤ 6 := by
  cases m <;> simp [writeBase]

/-- In the modes the table has for a read-modify-write instruction (R84). In (Indirect,X), which no
byte decodes to, the base is 8 (log entry 4). -/
theorem rmwBase_bounds {m : MemMode} (h : m.forIndexX = true) :
    2 ≤ (rmwBase m).toNat ∧ (rmwBase m).toNat ≤ 7 := by
  cases m with
  | zp a | zpX a | abs w | absX w => simp [rmwBase]
  | zpY a | absY w | indX a | indY a => cases h

section
variable (s : State)

theorem readCost_bounds (o : ReadMode) : 2 ≤ (readCost o s).toNat ∧ (readCost o s).toNat ≤ 7 := by
  cases o with
  | imm v => simp [readCost]
  | mem m =>
    have hbase := readBase_bounds m
    have hextra := (crosses m s).toNat_le
    rw [readCost, toNat_add_extra (by omega)]
    omega

theorem writeCost_bounds (m : MemMode) : 2 ≤ (writeCost m s).toNat ∧ (writeCost m s).toNat ≤ 7 := by
  have hbase := writeBase_bounds m
  have hextra := (paysIndexed s && crosses m s).toNat_le
  rw [writeCost, toNat_add_extra (by omega)]
  omega

theorem branchCost_bounds (taken : Bool) (next : Word) (off : Byte) :
    2 ≤ (branchCost taken next off).toNat ∧ (branchCost taken next off).toNat ≤ 7 := by
  have htaken : (2 + extra taken).toNat = 2 + taken.toNat := toNat_add_extra (by decide) taken
  have h₁ := taken.toNat_le
  have h₂ := (taken && pageDiffers next (branchTarget next off)).toNat_le
  rw [branchCost, toNat_add_extra (by omega)]
  omega

/-- Only here a count can be 8: Absolute,X with a page crossed, under `all_indexed` (R121). -/
theorem rmwCost_inBounds {m : MemMode} (h : m.forIndexX = true) :
    CountInBounds s.params.pagePenaltyScope (rmwCost m s) := by
  have hbase := rmwBase_bounds h
  have hextra := (paysIndexed s && crosses m s).toNat_le
  have hcost : (rmwCost m s).toNat = (rmwBase m).toNat + (paysIndexed s && crosses m s).toNat :=
    toNat_add_extra (by omega) _
  refine ⟨by omega, by omega, fun hscope => ?_⟩
  have hpays : paysIndexed s = false := by simp [paysIndexed, hscope]
  simp only [hpays, Bool.false_and, Bool.toNat_false] at hcost
  omega

theorem shiftCost_inBounds {o : ShiftMode} (h : o.admits MemMode.forIndexX = true) :
    CountInBounds s.params.pagePenaltyScope (shiftCost o s) := by
  cases o with
  | acc => exact countInBounds_of_le_seven (by simp [shiftCost])
  | mem m => exact rmwCost_inBounds s h

theorem instrCost_inBounds {i : Instr} (h : i.wellFormed = true) :
    CountInBounds s.params.pagePenaltyScope (instrCost s i) := by
  cases i with
  | lda o | ldx o | ldy o | adc o | sbc o | and o | ora o | eor o | cmp o | cpx o | cpy o =>
    exact countInBounds_of_le_seven (readCost_bounds s o)
  | bit m => exact countInBounds_of_le_seven (readCost_bounds s (.mem m))
  | sta m | stx m | sty m => exact countInBounds_of_le_seven (writeCost_bounds s m)
  | inc m | dec m => exact rmwCost_inBounds s h
  | asl o | lsr o | rol o | ror o => exact shiftCost_inBounds s h
  | bpl off | bmi off | bvc off | bvs off | bcc off | bcs off | bne off | beq off =>
    exact countInBounds_of_le_seven (branchCost_bounds _ _ _)
  | jmpAbs target | jmpInd ptr | jsr target | rts | rti | brk pad | pha | php | pla | plp
  | tax | tay | txa | tya | tsx | txs | inx | iny | dex | dey
  | clc | sec | cli | sei | cld | sed | clv | nop | undef op =>
    exact countInBounds_of_le_seven (by simp [instrCost])

/-! A service reports no cycles (R124). -/

theorem serviceReset_cycles : (serviceReset s).cycles = 0 := by
  simp [serviceReset, resetService, memRead16, beginTick]

@[simp] theorem enterHandler_cycles (vector ret : Word) (b : Bool) :
    (enterHandler vector ret b s).cycles = s.cycles := by
  simp [enterHandler, push16, memRead16]

theorem serviceNmi_cycles : (serviceNmi s).cycles = 0 := by
  simp [serviceNmi, interruptEntry, beginTick]

theorem serviceIrq_cycles : (serviceIrq s).cycles = 0 := by
  simp [serviceIrq, interruptEntry, beginTick]

end

/-- Settles O21, by the cost of the fetched instruction, which is well-formed, and the 0 of the
three services. -/
theorem reportedCyclesAreBounded : Obligations.ReportedCyclesAreBounded := by
  intro s t ht
  refine ⟨fun h => ?_, fun h => ?_⟩
  · rw [step_of_noRequest h] at ht
    rw [exec_cycles ht, ← (keeps_afterFetch s).params]
    exact instrCost_inBounds (afterFetch s) (fetchedInstr_wellFormed s)
  · rcases step_of_request h with hs | hs | hs <;> cases hs.symm.trans ht
    · exact serviceReset_cycles s
    · exact serviceNmi_cycles s
    · exact serviceIrq_cycles s

/-! ### The states a run begins in -/

theorem inv_reset : State.reset.Inv := by decide

theorem cartridgeOk_iff (c : Construction) :
    Construction.cartridgeOk c = true ↔
      1 ≤ c.params.prgBanks ∧ c.prg.length = c.params.prgBanks * bankSize := by
  simp [Construction.cartridgeOk]

/-- A cartridge is bad when it has no bank or an image of another size (U7, D18). -/
theorem cartridgeOk_eq_false_iff (c : Construction) :
    Construction.cartridgeOk c = false ↔
      c.params.prgBanks = 0 ∨ c.prg.length ≠ c.params.prgBanks * 16384 := by
  rw [← Bool.not_eq_true, cartridgeOk_iff, bankSize]
  omega

/-- With a well-formed cartridge the power-on state meets the invariant: both stores are lists of
bytes laid out from index 0 (R271). -/
theorem inv_powerOn {c : Construction} (h : Construction.cartridgeOk c = true) :
    (powerOn c).Inv := by
  obtain ⟨hbanks, hsize⟩ := (cartridgeOk_iff c).1 h
  refine ⟨Memory.wf_ofBytes _ _, fun p hp => ?_, Memory.wf_ofBytes _ _, fun p hp => ?_, hbanks⟩
  · simpa [ramSize] using (Memory.mem_ofBytes hp).2.1
  · simpa [powerOn, hsize] using (Memory.mem_ofBytes hp).2.1

/-- Settles O16, by the two answers of `construct`. -/
theorem constructedStatesMeetTheInvariant : Obligations.ConstructedStatesMeetTheInvariant := by
  refine ⟨inv_reset, fun c => ?_⟩
  rw [← cartridgeOk_eq_false_iff]
  cases hok : Construction.cartridgeOk c with
  | false => simp [construct, hok]
  | true =>
    refine ⟨fun t ht => ?_, by simp [construct, hok]⟩
    rw [construct, if_pos hok] at ht
    cases ht
    exact inv_powerOn hok

end Sys2Proof.Machine
end

section
/-!
PROOFS. The statements of spec/10_state.md: what every tick keeps of the invariant, PRG and the
parameters (R36, R59), the packed status (R33, R34), the power-on state and the first tick (R39,
R280, R282), which instructions write which register and flag (R21 to R32), and that the stored B,
D and the outputs of a tick show nowhere else (R28, R29, R72, R176).

The last is one relation, `Alike u`: two states that differ at most in the parts `u` names. Each
shared operation keeps two states alike, so each instruction, tick and interleaving does.
-/

open Sys2Proof Sys2Proof.Machine Sys2Proof.Statement

namespace Sys2Proof.Machine

/-! ### The memory map in the plain arithmetic of the statements -/

theorem regionOf_eq_ram_iff {a : Word} : regionOf a = .ram ↔ a.toNat < 0x2000 := by
  rw [regionOf]
  split_ifs <;> simp <;> omega

theorem regionOf_eq_ppu_iff {a : Word} :
    regionOf a = .ppu ↔ 0x2000 ≤ a.toNat ∧ a.toNat < 0x4000 := by
  rw [regionOf]
  split_ifs <;> simp <;> omega

theorem regionOf_eq_prg_iff {a : Word} : regionOf a = .prg ↔ 0x8000 ≤ a.toNat := by
  rw [regionOf]
  split_ifs <;> simp <;> omega

theorem ramIndex_eq (a : Word) : ramIndex a = a.toNat % 0x800 := by
  rw [ramIndex, BitVec.toNat_and]
  exact Nat.and_two_pow_sub_one_eq_mod a.toNat 11

theorem ppuIndex_eq (a : Word) : ppuIndex a = a.toNat % 8 := by
  rw [ppuIndex, BitVec.toNat_and]
  exact Nat.and_two_pow_sub_one_eq_mod a.toNat 3

theorem sameCell_iff_regions (a b : Word) :
    sameCell a b = true ↔
      regionOf a = .ram ∧ regionOf b = .ram ∧ ramIndex a = ramIndex b ∨
      regionOf a = .ppu ∧ regionOf b = .ppu ∧ ppuIndex a = ppuIndex b := by
  rw [sameCell]
  cases regionOf a <;> cases regionOf b <;> simp

theorem sameCell_iff (a b : Word) : sameCell a b = true ↔ SameCell a b := by
  simp only [sameCell_iff_regions, regionOf_eq_ram_iff, regionOf_eq_ppu_iff, ramIndex_eq,
    ppuIndex_eq, SameCell, and_assoc]

/-- The bytes of a word put together, in the plain arithmetic of the statements (R11). -/
theorem join_eq_wordOf (h l : Byte) : join h l = wordOf h l := by
  apply BitVec.eq_of_toNat_eq
  have hh := h.isLt
  have hl := l.isLt
  rw [join, wordOf, BitVec.toNat_append, BitVec.toNat_ofNat, ← Nat.shiftLeft_add_eq_or_of_lt hl,
    Nat.shiftLeft_eq]
  omega

theorem stackAddr_eq_stackCell (sp : Byte) : stackAddr sp = stackCell sp := by
  rw [stackAddr, join_eq_wordOf]
  rfl

/-- The stack page lies in RAM (R23, R63). -/
theorem stackCell_toNat (sp : Byte) : (stackCell sp).toNat = 0x100 + sp.toNat := by
  have h := sp.isLt
  rw [stackCell, BitVec.toNat_ofNat]
  omega

theorem stackCell_lt (sp : Byte) : (stackCell sp).toNat < 0x2000 := by
  have h := sp.isLt
  rw [stackCell_toNat]
  omega

/-- From 0x4000 up an address names no writable cell (R52). -/
theorem not_sameCell_of_ge {a b : Word} (h : 0x4000 ≤ b.toNat) : ¬ SameCell a b := by
  simp only [SameCell]
  omega

/-! ### What a bus read answers, region by region -/

theorem peek_of_ram (s : State) {a : Word} (h : a.toNat < 0x2000) :
    s.peek a = s.ram.read (a.toNat % 0x800) := by
  simp only [State.peek, regionOf_eq_ram_iff.2 h, ramIndex_eq]

theorem peek_of_ppu (s : State) {a : Word} (h : 0x2000 ≤ a.toNat) (h' : a.toNat < 0x4000) :
    s.peek a = s.ppu.get (a.toNat % 8) := by
  simp only [State.peek, regionOf_eq_ppu_iff.2 ⟨h, h'⟩, ppuIndex_eq]

theorem peek_of_prg (s : State) {a : Word} (h : 0x8000 ≤ a.toNat) :
    s.peek a = s.prg.read ((a.toNat - 0x8000) % (s.params.prgBanks * 16384)) := by
  simp only [State.peek, regionOf_eq_prg_iff.2 h, prgOffset, bankSize]

/-! ### What every tick keeps -/

/-- What the bus reads from 0x4000 up rests on PRG and the parameters alone (R56 to R59). -/
theorem peek_of_ge {a : Word} (h : 0x4000 ≤ a.toNat) {s t : State} (hprg : t.prg = s.prg)
    (hparams : t.params = s.params) : t.peek a = s.peek a := by
  cases hr : regionOf a with
  | ram =>
    have := regionOf_eq_ram_iff.1 hr
    omega
  | ppu =>
    have := regionOf_eq_ppu_iff.1 hr
    omega
  | prg => simp only [State.peek, hr, hprg, hparams]
  | apuIo | expansion | cartRam => simp only [State.peek, hr]

/-- Settles O15: it is a part of what every tick keeps. -/
theorem everyTickKeepsTheInvariant : Obligations.EveryTickKeepsTheInvariant := by
  intro s t hs ht
  obtain ⟨u, hu, -, -, hinv⟩ := goesOn_step s
  cases ht.symm.trans hu
  exact hinv hs

/-- Settles O18: every tick keeps PRG and the parameters, and from 0x4000 up the bus reads nothing
else. -/
theorem prgAndParametersNeverChange : Obligations.PrgAndParametersNeverChange := by
  intro s t ht
  obtain ⟨u, hu, hprg, hparams, -⟩ := goesOn_step s
  cases ht.symm.trans hu
  exact ⟨hprg, hparams, fun a ha => peek_of_ge ha hprg hparams⟩

/-! ### The packed status -/

/-- The order `N V 1 B D I Z C` of R33: the 128 flag states one by one. -/
theorem pack_eq_statusByte (f : Flags) : f.pack = statusByte f f.b := by
  obtain ⟨n, v, b, d, i, z, c⟩ := f
  revert n v b d i z c
  decide

theorem unpack_pack (f : Flags) : Flags.unpack f.pack = f := by
  obtain ⟨n, v, b, d, i, z, c⟩ := f
  revert n v b d i z c
  decide

/-- A push shows the bit 4 its event gives and not the stored B (R34). -/
theorem ppush_eq_statusByte (f : Flags) (b : Bool) : f.ppush b = statusByte f b := by
  obtain ⟨n, v, b', d, i, z, c⟩ := f
  revert n v b' d i z c b
  decide

theorem pack_unpack {p : Byte} (h : p.getLsbD 5 = true) : (Flags.unpack p).pack = p := by
  revert p
  decide

/-- Settles O28, by the finitely many flag states and bytes. -/
theorem packedStatusIsAProjection : Obligations.PackedStatusIsAProjection :=
  ⟨fun f => ⟨pack_eq_statusByte f, unpack_pack f⟩, ppush_eq_statusByte,
    fun _ => ⟨rfl, pack_unpack⟩⟩

/-! ### Power-on and the first tick -/

theorem pack_and_of_interrupt_break {f : Flags} (hi : f.i = true) (hb : f.b = true) :
    f.pack &&& 0x34 = 0x34 := by
  obtain ⟨n, v, b, d, i, z, c⟩ := f
  cases hi
  cases hb
  revert n v d z c
  decide

theorem Memory.read_ofBytes_zero (bs : List Byte) (i : Nat) :
    Memory.read (Memory.ofBytes bs 0) i = bs.getD i 0 := by
  simpa [unlisted] using Memory.read_ofBytes bs 0 i

theorem powerOn_peek_prg (c : Construction) {a : Word} (h : 0x8000 ≤ a.toNat) :
    (powerOn c).peek a = c.prg.getD ((a.toNat - 0x8000) % (c.params.prgBanks * 16384)) 0 := by
  rw [peek_of_prg _ h]
  exact Memory.read_ofBytes_zero _ _

theorem powerOn_peek_ram (c : Construction) (k : Fin 2048) :
    (powerOn c).peek (BitVec.ofNat 16 k.val) = c.ram0[k.val] := by
  have hk := k.isLt
  have ha : (BitVec.ofNat 16 k.val).toNat = k.val := by rw [BitVec.toNat_ofNat]; omega
  rw [peek_of_ram _ (by omega), ha, Nat.mod_eq_of_lt hk]
  refine (Memory.read_ofBytes_zero _ _).trans ?_
  simp

theorem powerOn_peek_ppu (c : Construction) (k : Fin 8) :
    (powerOn c).peek (BitVec.ofNat 16 (0x2000 + k.val)) = c.ppuBuffer[k.val] := by
  have hk := k.isLt
  have ha : (BitVec.ofNat 16 (0x2000 + k.val)).toNat = 0x2000 + k.val := by
    rw [BitVec.toNat_ofNat]; omega
  have hi : (0x2000 + k.val) % 8 = k.val := by omega
  rw [peek_of_ppu _ (by omega) (by omega), ha, hi]
  fin_cases k <;> rfl

/-- `powerOn` leaves the reset request pending, so the first tick services it (R280). -/
theorem step_powerOn (c : Construction) :
    step (powerOn c) = .next (serviceReset (powerOn c)) :=
  rfl

theorem serviceReset_pc (s : State) :
    (serviceReset s).pc = wordOf (s.peek 0xFFFD) (s.peek 0xFFFC) :=
  join_eq_wordOf _ _

/-- Settles O17: the construction is `powerOn`, and its first tick the reset service. -/
theorem powerOnThenFirstTick : Obligations.PowerOnThenFirstTick := by
  intro c s hs
  rw [construct] at hs
  split at hs
  · cases hs
    refine ⟨rfl, rfl, rfl, rfl, rfl, rfl, rfl, rfl, rfl, rfl, rfl, rfl, rfl, rfl, rfl, rfl,
      fun _ => powerOn_peek_prg c, powerOn_peek_ram c, powerOn_peek_ppu c,
      serviceReset (powerOn c), step_powerOn c, rfl, serviceReset_cycles _, ?_,
      pack_and_of_interrupt_break rfl rfl⟩
    rw [serviceReset_pc, powerOn_peek_prg c (by decide), powerOn_peek_prg c (by decide)]
    rfl
  · cases hs

/-! ### Which instructions write what

`cases h` reads the next state off the instruction's meaning; the laws of its operand access and of
the stack then say what that state leaves as it was. -/

/-- Settles O55, class by class: each instruction writes the registers its class names. -/
theorem onlyListedInstructionsWriteRegisters :
    Obligations.OnlyListedInstructionsWriteRegisters := by
  intro i s t h
  cases i with
  | lda o | ldx o | ldy o | adc o | sbc o | and o | ora o | eor o | cmp o | cpx o | cpy o =>
    cases h; simp [Instr.mnemonic, readOperand_eq, addInto]
  | bit m => cases h; simp [Instr.mnemonic, readMem_eq]
  | sta m | stx m | sty m => cases h; simp [Instr.mnemonic, writeMem_eq]
  | inc m | dec m => cases h; simp [Instr.mnemonic, modifyMem_eq]
  | asl o | lsr o | rol o | ror o =>
    cases h
    cases o with
    | acc => simp [Instr.mode, ShiftMode.mode, modifyShift]
    | mem m => simp [Instr.mnemonic, modifyShift, modifyMem_eq]
  | tax | tay | txa | tya | tsx | txs | inx | iny | dex | dey
  | clc | sec | cli | sei | cld | sed | clv | nop | undef op => cases h; simp [Instr.mnemonic]
  | bpl off | bmi off | bvc off | bvs off | bcc off | bcs off | bne off | beq off
  | jmpAbs target | jmpInd ptr => cases h; simp
  | jsr target | pha | php => cases h; simp [Instr.mnemonic, push16]
  | brk pad => cases h; simp [Instr.mnemonic, enterHandler_registers]
  | rts | pla | plp | rti =>
    cases h; simp [Instr.mnemonic, pullStatus, returnFromHandler, pop_eq, pop16_eq]

/-- Settles O56, class by class. -/
theorem onlyListedInstructionsWriteFlags : Obligations.OnlyListedInstructionsWriteFlags := by
  intro i s t h
  cases i with
  | lda o | ldx o | ldy o | adc o | sbc o | and o | ora o | eor o | cmp o | cpx o | cpy o =>
    cases h; simp [Instr.mnemonic, readOperand_eq, addInto, Flags.afterCompare]
  | bit m => cases h; simp [Instr.mnemonic, readMem_eq, Flags.afterBit]
  | sta m | stx m | sty m => cases h; simp [writeMem_eq]
  | inc m | dec m => cases h; simp [Instr.mnemonic, modifyMem_eq]
  | asl o | lsr o | rol o | ror o => cases h; simp [Instr.mnemonic]
  | tax | tay | txa | tya | tsx | txs | inx | iny | dex | dey
  | clc | sec | cli | sei | cld | sed | clv | nop | undef op => cases h; simp [Instr.mnemonic]
  | bpl off | bmi off | bvc off | bvs off | bcc off | bcs off | bne off | beq off
  | jmpAbs target | jmpInd ptr => cases h; simp
  | jsr target | pha | php => cases h; simp [push16]
  | brk pad => cases h; simp [Instr.mnemonic, enterHandler_registers]
  | rts | pla => cases h; simp [Instr.mnemonic, pop_eq, pop16_eq]
  | plp | rti => simp [Instr.mnemonic]

/-! ### Two states that differ only where no rule looks -/

/-- The parts of a state that two runs are let to differ in: the stored B, D, and the count and the
trace of the last tick. -/
structure Blind where
  storedB : Bool
  decimal : Bool
  outputs : Bool

/-- The flags without the parts `u` names. -/
def Flags.erase (u : Blind) (f : Flags) : Flags :=
  { f with b := !u.storedB && f.b, d := !u.decimal && f.d }

/-- The state without the parts `u` names. -/
def State.erase (u : Blind) (s : State) : State :=
  { s with p := s.p.erase u
           cycles := if u.outputs then 0 else s.cycles
           trace := if u.outputs then [] else s.trace }

/-- Two states that differ at most in the parts `u` names. -/
structure Alike (u : Blind) (s s' : State) : Prop where
  erase_eq : s.erase u = s'.erase u

/-- Flags that differ at most in the parts `u` names. -/
structure FlagsAlike (u : Blind) (f g : Flags) : Prop where
  erase_eq : f.erase u = g.erase u

@[refl] theorem FlagsAlike.refl (u : Blind) (f : Flags) : FlagsAlike u f f := ⟨rfl⟩

section
variable {u : Blind} {f g : Flags} (h : FlagsAlike u f g)
include h

@[gcongr] theorem FlagsAlike.setZN (r : Byte) : FlagsAlike u (f.setZN r) (g.setZN r) :=
  ⟨congrArg (Flags.setZN · r) h.erase_eq⟩
@[gcongr] theorem FlagsAlike.afterAdd (a m : Byte) :
    FlagsAlike u (f.afterAdd a m) (g.afterAdd a m) :=
  ⟨congrArg (Flags.afterAdd · a m) h.erase_eq⟩
@[gcongr] theorem FlagsAlike.afterBit (a m : Byte) :
    FlagsAlike u (f.afterBit a m) (g.afterBit a m) :=
  ⟨congrArg (Flags.afterBit · a m) h.erase_eq⟩
@[gcongr] theorem FlagsAlike.afterCompare (r m : Byte) :
    FlagsAlike u (f.afterCompare r m) (g.afterCompare r m) :=
  ⟨congrArg (Flags.afterCompare · r m) h.erase_eq⟩
@[gcongr] theorem FlagsAlike.afterShift (out : Bool) (r : Byte) :
    FlagsAlike u (f.afterShift out r) (g.afterShift out r) :=
  ⟨congrArg (Flags.afterShift · out r) h.erase_eq⟩

theorem FlagsAlike.withC (c : Bool) : FlagsAlike u { f with c := c } { g with c := c } :=
  ⟨congrArg (fun f : Flags => { f with c := c }) h.erase_eq⟩
theorem FlagsAlike.withI (i : Bool) : FlagsAlike u { f with i := i } { g with i := i } :=
  ⟨congrArg (fun f : Flags => { f with i := i }) h.erase_eq⟩
theorem FlagsAlike.withV (v : Bool) : FlagsAlike u { f with v := v } { g with v := v } :=
  ⟨congrArg (fun f : Flags => { f with v := v }) h.erase_eq⟩
theorem FlagsAlike.withD (d : Bool) : FlagsAlike u { f with d := d } { g with d := d } :=
  ⟨congrArg (fun f : Flags => { f with d := !u.decimal && d }) h.erase_eq⟩
theorem FlagsAlike.withB (b : Bool) : FlagsAlike u { f with b := b } { g with b := b } :=
  ⟨congrArg (fun f : Flags => { f with b := !u.storedB && b }) h.erase_eq⟩

end

/-- A value that an erased state gives as well is the same in two states that are alike. -/
theorem Alike.value {u : Blind} {s s' : State} (h : Alike u s s') {α : Type} (g : State → α)
    (hg : ∀ s, g (s.erase u) = g s) : g s' = g s := by
  rw [← hg s', ← hg s, h.erase_eq]

section
variable {u : Blind} {s s' : State} (h : Alike u s s')
include h

theorem Alike.registers :
    s'.a = s.a ∧ s'.x = s.x ∧ s'.y = s.y ∧ s'.sp = s.sp ∧ s'.pc = s.pc ∧
      s'.params = s.params :=
  ⟨h.value State.a fun _ => rfl, h.value State.x fun _ => rfl, h.value State.y fun _ => rfl,
    h.value State.sp fun _ => rfl, h.value State.pc fun _ => rfl,
    h.value State.params fun _ => rfl⟩

theorem Alike.flags :
    s'.p.n = s.p.n ∧ s'.p.v = s.p.v ∧ s'.p.i = s.p.i ∧ s'.p.z = s.p.z ∧ s'.p.c = s.p.c :=
  ⟨h.value (·.p.n) fun _ => rfl, h.value (·.p.v) fun _ => rfl, h.value (·.p.i) fun _ => rfl,
    h.value (·.p.z) fun _ => rfl, h.value (·.p.c) fun _ => rfl⟩

theorem Alike.flagsAlike : FlagsAlike u s.p s'.p := ⟨congrArg State.p h.erase_eq⟩

theorem Alike.peek (a : Word) : s'.peek a = s.peek a := h.value (·.peek a) fun _ => rfl

theorem Alike.ea (m : MemMode) : ea m s' = ea m s := h.value (Machine.ea m) fun _ => rfl

theorem Alike.pointerReads (m : MemMode) : pointerReads m s' = pointerReads m s :=
  h.value (Machine.pointerReads m) fun _ => rfl

theorem Alike.costs :
    (∀ o, readCost o s' = readCost o s) ∧ (∀ m, writeCost m s' = writeCost m s) ∧
    (∀ m, rmwCost m s' = rmwCost m s) ∧ (∀ o, shiftCost o s' = shiftCost o s) :=
  ⟨fun o => h.value (readCost o) fun _ => rfl, fun m => h.value (writeCost m) fun _ => rfl,
    fun m => h.value (rmwCost m) fun _ => rfl, fun o => h.value (shiftCost o) fun _ => rfl⟩

@[gcongr] theorem Alike.withA (v : Byte) : Alike u (s.withA v) (s'.withA v) :=
  ⟨congrArg (State.withA · v) h.erase_eq⟩
@[gcongr] theorem Alike.withX (v : Byte) : Alike u (s.withX v) (s'.withX v) :=
  ⟨congrArg (State.withX · v) h.erase_eq⟩
@[gcongr] theorem Alike.withY (v : Byte) : Alike u (s.withY v) (s'.withY v) :=
  ⟨congrArg (State.withY · v) h.erase_eq⟩
@[gcongr] theorem Alike.withSp (v : Byte) : Alike u (s.withSp v) (s'.withSp v) :=
  ⟨congrArg (State.withSp · v) h.erase_eq⟩
@[gcongr] theorem Alike.withPc (w : Word) : Alike u (s.withPc w) (s'.withPc w) :=
  ⟨congrArg (State.withPc · w) h.erase_eq⟩
@[gcongr] theorem Alike.withCycles (n : Cycles) : Alike u (s.withCycles n) (s'.withCycles n) :=
  ⟨congrArg (State.withCycles · (if u.outputs then 0 else n)) h.erase_eq⟩

@[gcongr] theorem Alike.withFlags {f g : Flags} (hf : FlagsAlike u f g) :
    Alike u (s.withFlags f) (s'.withFlags g) :=
  ⟨congrArg₂ State.withFlags h.erase_eq hf.erase_eq⟩
@[gcongr] theorem Alike.setZN (r : Byte) : Alike u (s.setZN r) (s'.setZN r) :=
  h.withFlags (h.flagsAlike.setZN r)

@[gcongr] theorem Alike.logged (acc : Access) : Alike u (s.logged acc) (s'.logged acc) := by
  have hl (s : State) : (s.logged acc).erase u =
      { s.erase u with trace := if u.outputs then [] else (s.erase u).trace ++ [acc] } := by
    cases hu : u.outputs <;> simp [State.erase, State.logged, hu]
  exact ⟨by rw [hl, hl, h.erase_eq]⟩

@[gcongr] theorem Alike.poke (a : Word) (v : Byte) : Alike u (s.poke a v) (s'.poke a v) := by
  have hp (s : State) : (s.poke a v).erase u = (s.erase u).poke a v := by
    unfold State.poke
    split <;> rfl
  exact ⟨by rw [hp, hp, h.erase_eq]⟩

theorem Alike.memRead (a : Word) : Alike u (memRead a s).2 (memRead a s').2 := by
  rw [memRead_snd, memRead_snd, h.peek]
  exact h.logged _

@[gcongr] theorem Alike.memWrite (a : Word) (v : Byte) :
    Alike u (memWrite a v s) (memWrite a v s') :=
  (h.poke a v).logged _

@[gcongr] theorem Alike.push (v : Byte) : Alike u (push v s) (push v s') := by
  simp only [Machine.push, memWrite_sp, h.registers]
  gcongr

@[gcongr] theorem Alike.push16 (w : Word) : Alike u (push16 w s) (push16 w s') :=
  (h.push _).push _

@[gcongr] theorem Alike.readAll (as : List Word) : Alike u (readAll as s) (readAll as s') := by
  induction as generalizing s s' with
  | nil => exact h
  | cons a as ih => exact ih (h.memRead a)

theorem Alike.readPointer (m : MemMode) : Alike u (readPointer m s) (readPointer m s') := by
  rw [Machine.readPointer, Machine.readPointer, h.pointerReads]
  exact h.readAll _

theorem Alike.readMem (m : MemMode) : Alike u (readMem m s).2 (readMem m s').2 := by
  rw [Machine.readMem, Machine.readMem, h.ea]
  exact (h.readPointer m).memRead _

theorem Alike.readMem_value (m : MemMode) : (Machine.readMem m s').1 = (Machine.readMem m s).1 := by
  simp [Machine.readMem_eq, h.ea, h.peek]

theorem Alike.readOperand_value (o : ReadMode) : (readOperand o s').1 = (readOperand o s).1 := by
  cases o with
  | imm v => rfl
  | mem m => exact h.readMem_value m

theorem Alike.readOperand (o : ReadMode) :
    Alike u (readOperand o s).2 (readOperand o s').2 := by
  cases o with
  | imm v => exact h
  | mem m => exact h.readMem m

@[gcongr] theorem Alike.writeMem (m : MemMode) (v : Byte) :
    Alike u (writeMem m v s) (writeMem m v s') := by
  rw [Machine.writeMem, Machine.writeMem, h.ea]
  exact (h.readPointer m).memWrite _ _

theorem Alike.modifyMem (m : MemMode) (f : Byte → Byte) :
    Alike u (modifyMem m f s).2 (modifyMem m f s').2 := by
  simp only [Machine.modifyMem, h.ea, h.readMem_value]
  exact (h.readMem m).memWrite _ _

theorem Alike.modifyMem_value (m : MemMode) (f : Byte → Byte) :
    (Machine.modifyMem m f s').1 = (Machine.modifyMem m f s).1 :=
  h.readMem_value m

theorem Alike.modifyShift_value (o : ShiftMode) (f : Byte → Byte) :
    (modifyShift o f s').1 = (modifyShift o f s).1 := by
  cases o with
  | acc => exact h.registers.1
  | mem m => exact h.readMem_value m

theorem Alike.modifyShift (o : ShiftMode) (f : Byte → Byte) :
    Alike u (modifyShift o f s).2 (modifyShift o f s').2 := by
  cases o with
  | acc =>
    simp only [Machine.modifyShift, h.registers]
    exact h.withA _
  | mem m => exact h.modifyMem m f

@[gcongr] theorem Alike.pullStatus : Alike u (pullStatus s) (pullStatus s') := by
  simp only [Machine.pullStatus, pop_eq, h.registers, h.peek]
  gcongr

@[gcongr] theorem Alike.returnFromHandler :
    Alike u (returnFromHandler s) (returnFromHandler s') := by
  have hp := h.pullStatus
  simp only [Machine.returnFromHandler, pop16_eq, hp.registers, hp.peek]
  gcongr

/-- A pushed status shows D and no stored B (R29, R34). -/
theorem Alike.ppush (hd : u.decimal = false) (b : Bool) : s'.p.ppush b = s.p.ppush b := by
  have hD : s'.p.d = s.p.d := by
    simpa [Flags.erase, hd] using congrArg Flags.d h.flagsAlike.erase_eq.symm
  simp only [ppush_eq_statusByte, statusByte, h.flags, hD]

theorem Alike.loadPc (vector : Word) :
    Alike u ((memRead16 vector s).2.withPc (memRead16 vector s).1)
      ((memRead16 vector s').2.withPc (memRead16 vector s').1) := by
  simp only [memRead16_eq, h.peek]
  gcongr

theorem Alike.enterHandler (hd : u.decimal = false) (vector ret : Word) (b : Bool) :
    Alike u (enterHandler vector ret b s) (enterHandler vector ret b s') := by
  have hp := (h.push16 ret).push (s.p.ppush b)
  simp only [Machine.enterHandler, h.ppush hd]
  exact (hp.withFlags (hp.flagsAlike.withI true)).loadPc vector

/-! ### Every instruction keeps two states alike -/

/-- Two outcomes that go on in states that are alike. -/
def OutcomesAlike (u : Blind) (o o' : Host.Outcome State Fault Refusal) : Prop :=
  ∃ t t' : State, o = .next t ∧ o' = .next t' ∧ Alike u t t'

omit h in
@[simp] theorem outcomesAlike_next : OutcomesAlike u (.next s) (.next s') ↔ Alike u s s' := by
  simp [OutcomesAlike]

@[gcongr] theorem Alike.retire (n : Nat) (c : Cycles) :
    OutcomesAlike u (retire n c s) (retire n c s') := by
  simp only [Machine.retire, h.registers, outcomesAlike_next]
  gcongr

@[gcongr] theorem Alike.transfer (w : Word) (c : Cycles) :
    OutcomesAlike u (transfer w c s) (transfer w c s') := by
  simp only [Machine.transfer, outcomesAlike_next]
  gcongr

@[gcongr] theorem Alike.branchIf (taken : Bool) (off : Byte) :
    OutcomesAlike u (branchIf taken off s) (branchIf taken off s') := by
  simp only [Machine.branchIf, h.registers]
  gcongr

@[gcongr] theorem Alike.addInto (m : Byte) : Alike u (addInto m s) (addInto m s') := by
  have hf := h.flagsAlike
  simp only [Machine.addInto, h.registers, h.flags]
  gcongr

/-- A pushed status shows D, so PHP and BRK need D to agree; no other instruction looks at the parts
of `Blind` (R28, R29, R176). -/
theorem Alike.exec (i : Instr) (hi : u.decimal = false ∨ i.mnemonic ∉ ["PHP", "BRK"]) :
    OutcomesAlike u (exec i s) (exec i s') := by
  have hf := h.flagsAlike
  cases i with
  | lda o | ldx o | ldy o =>
    have hr := h.readOperand o
    simp only [Machine.exec, execLda, execLdx, execLdy, h.readOperand_value, h.costs]
    gcongr
  | sta m | stx m | sty m =>
    simp only [Machine.exec, execSta, execStx, execSty, h.registers, h.costs]
    gcongr
  | tax | tay | txa | tya | tsx | txs =>
    simp only [Machine.exec, execTax, execTay, execTxa, execTya, execTsx, execTxs, h.registers]
    gcongr
  | adc o | sbc o =>
    have hr := h.readOperand o
    simp only [Machine.exec, execAdc, execSbc, h.readOperand_value, h.costs]
    gcongr
  | and o | ora o | eor o =>
    have hr := h.readOperand o
    simp only [Machine.exec, execAnd, execOra, execEor, h.readOperand_value, h.registers, h.costs]
    gcongr
  | bit m =>
    have hr := h.readMem m
    simp only [Machine.exec, execBit, h.readMem_value, h.registers, h.costs]
    gcongr
  | cmp o | cpx o | cpy o =>
    have hr := h.readOperand o
    simp only [Machine.exec, execCmp, execCpx, execCpy, h.readOperand_value, h.registers, h.costs]
    gcongr
  | inc m | dec m =>
    have hw := h.modifyMem m
    simp only [Machine.exec, execInc, execDec, h.modifyMem_value, h.costs]
    gcongr
    apply hw
  | inx | iny | dex | dey =>
    simp only [Machine.exec, execInx, execIny, execDex, execDey, h.registers]
    gcongr
  | asl o | lsr o | rol o | ror o =>
    have hw := h.modifyShift o
    simp only [Machine.exec, execAsl, execLsr, execRol, execRor, h.modifyShift_value, h.flags,
      h.costs]
    gcongr
    apply hw
  | bpl off | bmi off | bvc off | bvs off | bcc off | bcs off | bne off | beq off =>
    simp only [Machine.exec, execBpl, execBmi, execBvc, execBvs, execBcc, execBcs, execBne,
      execBeq, h.flags]
    gcongr
  | jmpAbs target | jmpInd ptr =>
    simp only [Machine.exec, execJmpAbs, execJmpInd, memRead_fst, memRead_snd, State.logged_peek,
      h.peek, h.registers]
    gcongr
  | jsr target | rts =>
    simp only [Machine.exec, execJsr, execRts, pop16_eq, h.peek, h.registers]
    gcongr
  | pha | pla | plp =>
    simp only [Machine.exec, execPha, execPla, execPlp, pop_eq, h.peek, h.registers]
    gcongr
  | clc | sec => exact (h.withFlags (hf.withC _)).retire 1 2
  | cli | sei => exact (h.withFlags (hf.withI _)).retire 1 2
  | cld | sed => exact (h.withFlags (hf.withD _)).retire 1 2
  | clv => exact (h.withFlags (hf.withV _)).retire 1 2
  | php =>
    have hd : u.decimal = false := by simpa [Instr.mnemonic] using hi
    simp only [Machine.exec, execPhp, h.ppush hd]
    gcongr
  | brk pad =>
    have hd : u.decimal = false := by simpa [Instr.mnemonic] using hi
    simp only [Machine.exec, execBrk, h.registers, outcomesAlike_next]
    exact (h.enterHandler hd irqVector _ true).withCycles 7
  | rti =>
    simp only [Machine.exec, execRti, outcomesAlike_next]
    gcongr
  | nop | undef op => exact h.retire 1 2
end

section
variable {u : Blind} {s s' : State} (h : Alike u s s') (hd : u.decimal = false)
include h

theorem Alike.beginTick : Alike u (beginTick s) (beginTick s') := by
  have hb (s : State) : (Machine.beginTick s).erase u = Machine.beginTick (s.erase u) := by
    simp [Machine.beginTick, State.erase]
  exact ⟨by rw [hb, hb, h.erase_eq]⟩

theorem Alike.resetService : Alike u (resetService s) (resetService s') := by
  have hr := (h.loadPc resetVector).withSp 0xFF
  exact hr.withFlags ((hr.flagsAlike.withI true).withB true)

theorem Alike.fetchedInstr : fetchedInstr s' = fetchedInstr s :=
  h.value Machine.fetchedInstr fun _ => rfl

theorem Alike.afterFetch : Alike u (afterFetch s) (afterFetch s') := by
  have hb := h.beginTick
  simp only [Machine.afterFetch, fetch, hb.registers]
  exact ((hb.memRead _).memRead _).memRead _

theorem Alike.transitionOf : transitionOf s' = transitionOf s :=
  h.value Machine.transitionOf fun _ => rfl

theorem Alike.withResetReq (b : Bool) :
    Alike u { s with resetReq := b } { s' with resetReq := b } :=
  ⟨congrArg (fun t : State => { t with resetReq := b }) h.erase_eq⟩
theorem Alike.withNmiReq (b : Bool) : Alike u { s with nmiReq := b } { s' with nmiReq := b } :=
  ⟨congrArg (fun t : State => { t with nmiReq := b }) h.erase_eq⟩
theorem Alike.withIrqReq (b : Bool) : Alike u { s with irqReq := b } { s' with irqReq := b } :=
  ⟨congrArg (fun t : State => { t with irqReq := b }) h.erase_eq⟩

theorem Alike.envStep (a : EnvAction) : Option.Rel (Alike u) (envStep a s) (envStep a s') := by
  cases a with
  | requestIrq => exact .some (h.withIrqReq true)
  | requestNmi => exact .some (h.withNmiReq true)
  | requestReset => exact .some (h.withResetReq true)
  | ppuWrite k v =>
    exact .some ⟨congrArg (fun t : State => { t with ppu := t.ppu.set k.val v }) h.erase_eq⟩
  | ramWrite k v =>
    have hw := h.value (·.params.envWritesRam) fun _ => rfl
    simp only [Machine.envStep, hw]
    split
    · exact .some ⟨congrArg (fun t : State => { t with ram := t.ram.write k.val v }) h.erase_eq⟩
    · exact .none

include hd

theorem Alike.interruptEntry (vector : Word) :
    Alike u (interruptEntry vector s) (interruptEntry vector s') := by
  rw [Machine.interruptEntry, Machine.interruptEntry, h.value State.pc fun _ => rfl]
  exact h.enterHandler hd vector s.pc false

theorem Alike.step : OutcomesAlike u (step s) (step s') := by
  have hb := h.beginTick
  unfold Machine.step
  rw [h.transitionOf]
  cases Machine.transitionOf s with
  | reset => exact outcomesAlike_next.2 (hb.resetService.withResetReq false)
  | nmi => exact outcomesAlike_next.2 ((hb.interruptEntry hd nmiVector).withNmiReq false)
  | irq => exact outcomesAlike_next.2 ((hb.interruptEntry hd irqVector).withIrqReq false)
  | execute =>
    simp only [h.fetchedInstr]
    exact h.afterFetch.exec _ (.inl hd)

theorem Alike.sysStep (e : Event) : Option.Rel (Alike u) (sysStep e s) (sysStep e s') := by
  cases e with
  | tick =>
    obtain ⟨t, t', ht, ht', ha⟩ := h.step hd
    simp only [Machine.sysStep, nextState, ht, ht']
    exact .some ha
  | env a => exact h.envStep a

/-- Two runs through one interleaving stop at the same event, or end in states that are alike. -/
theorem Alike.sysRun (es : List Event) : Option.Rel (Alike u) (sysRun es s) (sysRun es s') := by
  induction es generalizing s s' with
  | nil => exact .some h
  | cons e es ih =>
    have hstep := h.sysStep hd e
    rw [sysRun_cons, sysRun_cons]
    generalize Machine.sysStep e s = o, Machine.sysStep e s' = o' at hstep ⊢
    cases hstep with
    | none => exact .none
    | some ha => exact ih ha

end

/-- The stored B and the outputs of the last tick are let to differ. -/
def Blind.breakAndOutputs : Blind := { storedB := true, decimal := false, outputs := true }

theorem sameButBreakAndOutputs_iff {s s' : State} :
    SameButBreakAndOutputs s s' ↔ Alike .breakAndOutputs s s' := by
  constructor
  · intro h
    rw [SameButBreakAndOutputs] at h
    exact ⟨by rw [h]; rfl⟩
  · rintro ⟨h⟩
    exact (congrArg (fun t : State => { t with
      p := { t.p with b := s'.p.b }, cycles := s'.cycles, trace := s'.trace }) h).symm

/-- Settles O19: every tick and every environment step keeps the two states alike, for a pushed
status shows no stored B and every tick overwrites both outputs. -/
theorem storedBreakAndOutputsAreUnobservable :
    Obligations.StoredBreakAndOutputsAreUnobservable := by
  intro es s s' h
  have hrun := (sameButBreakAndOutputs_iff.1 h).sysRun rfl es
  generalize sysRun es s = o, sysRun es s' = o' at hrun ⊢
  cases hrun with
  | none => exact .inl ⟨rfl, rfl⟩
  | some ha => exact .inr ⟨_, _, rfl, rfl, sameButBreakAndOutputs_iff.2 ha⟩

/-! ### D and its copy in a pushed status -/

/-- Only D is let to differ. -/
def Blind.onlyDecimal : Blind := { storedB := false, decimal := true, outputs := false }

theorem sameButDecimal_iff {s s' : State} : SameButDecimal s s' ↔ Alike .onlyDecimal s s' := by
  constructor
  · intro h
    rw [SameButDecimal] at h
    exact ⟨by rw [h]; rfl⟩
  · rintro ⟨h⟩
    exact (congrArg (fun t : State => { t with p := { t.p with d := s'.p.d } }) h).symm

/-- Everything a push does: its cell lies in RAM, whatever SP is (R23, R63). -/
theorem push_eq (v : Byte) (s : State) :
    push v s = { s with ram := s.ram.write (ramIndex (stackAddr s.sp)) v, sp := s.sp - 1
                        trace := s.trace ++ [.write (stackAddr s.sp) v] } := by
  have hr : regionOf (stackAddr s.sp) = .ram := by
    rw [regionOf_eq_ram_iff, stackAddr_eq_stackCell]
    exact stackCell_lt s.sp
  simp only [push, memWrite, State.poke, hr, State.logged, State.withSp]

/-- D stands at bit 3 of a pushed status and nowhere else in it (R33, R34). -/
theorem ppush_withD_and (f : Flags) (d b : Bool) :
    ({ f with d := d } : Flags).ppush b &&& 0xF7 = f.ppush b &&& 0xF7 := by
  obtain ⟨n, v, b', d', i, z, c⟩ := f
  revert n v b' d' i z c d b
  decide

section
variable {s s' : State} (h : Alike .onlyDecimal s s')
include h

theorem Alike.ppush_and (b : Bool) : s'.p.ppush b &&& 0xF7 = s.p.ppush b &&& 0xF7 := by
  rw [congrArg State.p (sameButDecimal_iff.2 h)]
  exact ppush_withD_and s.p s'.p.d b

/-- Two pushes of bytes that differ at most in bit 3. -/
theorem pushedDecimal_push (hs : Memory.wf s.ram) {v v' : Byte} (hv : v' &&& 0xF7 = v &&& 0xF7) :
    SameButPushedDecimal (stackCell s.sp) (push v s) (push v' s') := by
  have hram := h.value State.ram fun _ => rfl
  have htrace := h.value State.trace fun _ => rfl
  have hsp := h.value State.sp fun _ => rfl
  refine ⟨?_, ?_, fun b => ?_⟩
  · rw [push_eq, push_eq, hsp, hram]
    exact congrArg (fun t : State => { t with
      ram := s.ram.write (ramIndex (stackAddr s.sp)) v', sp := s.sp - 1
      trace := s'.trace ++ [Access.write (stackAddr s.sp) v'] }) (sameButDecimal_iff.2 h)
  · simp only [push_trace, htrace, hsp, List.map_append, List.map_cons, forgetPushedD,
      stackAddr_eq_stackCell, if_true, hv]
  · have hcell : sameCell (stackAddr s.sp) b = true ↔ SameCell (stackCell s.sp) b := by
      rw [sameCell_iff, stackAddr_eq_stackCell]
    rw [push_peek s hs, push_peek s' (hram ▸ hs), h.peek, hsp]
    exact ⟨fun hb => by rw [if_pos (hcell.2 hb), if_pos (hcell.2 hb), hv],
      fun hb => by rw [if_neg (mt hcell.1 hb), if_neg (mt hcell.1 hb)]⟩

end

/-! What comes after the push of the status keeps its bit 3 the only other difference. -/

section
variable {cell : Word} {t t' : State} (h : SameButPushedDecimal cell t t')
include h

theorem pushedDecimal_withPc (w : Word) :
    SameButPushedDecimal cell (t.withPc w) (t'.withPc w) := by
  obtain ⟨heq, htrace, hpeek⟩ := h
  exact ⟨congrArg (State.withPc · w) heq, htrace, hpeek⟩

theorem pushedDecimal_withCycles (n : Cycles) :
    SameButPushedDecimal cell (t.withCycles n) (t'.withCycles n) := by
  obtain ⟨heq, htrace, hpeek⟩ := h
  exact ⟨congrArg (State.withCycles · n) heq, htrace, hpeek⟩

theorem pushedDecimal_withI (i : Bool) :
    SameButPushedDecimal cell (t.withFlags { t.p with i := i })
      (t'.withFlags { t'.p with i := i }) := by
  obtain ⟨heq, htrace, hpeek⟩ := h
  exact ⟨congrArg (fun u : State => u.withFlags { u.p with i := i }) heq, htrace, hpeek⟩

/-- A read of another cell answers the same byte. -/
theorem pushedDecimal_logged {a : Word} (ha : ¬ SameCell cell a) :
    SameButPushedDecimal cell (t.logged (.read a (t.peek a)))
      (t'.logged (.read a (t'.peek a))) := by
  obtain ⟨heq, htrace, hpeek⟩ := h
  rw [(hpeek a).2 ha]
  exact ⟨congrArg (fun u : State => u.logged (.read a (t.peek a))) heq, by simp [htrace], hpeek⟩

/-- PC is loaded from a vector, which lies in PRG and so names no writable cell. -/
theorem pushedDecimal_loadPc {vector : Word} (hl : 0x4000 ≤ vector.toNat)
    (hh : 0x4000 ≤ (vector + 1).toNat) :
    SameButPushedDecimal cell ((memRead16 vector t).2.withPc (memRead16 vector t).1)
      ((memRead16 vector t').2.withPc (memRead16 vector t').1) := by
  have hcl := not_sameCell_of_ge (a := cell) hl
  have hch := not_sameCell_of_ge (a := cell) hh
  have hread := pushedDecimal_logged (pushedDecimal_logged h hcl) hch
  obtain ⟨-, -, hpeek⟩ := h
  have hvl := (hpeek vector).2 hcl
  have hvh := (hpeek (vector + 1)).2 hch
  simp only [State.logged_peek, memRead16_eq, hvl, hvh] at hread ⊢
  exact pushedDecimal_withPc hread _

end

theorem pushedDecimal_enterHandler {s s' : State} (h : Alike .onlyDecimal s s') (hs : s.Inv)
    (ret : Word) {vector : Word} (b : Bool) (hl : 0x4000 ≤ vector.toNat)
    (hh : 0x4000 ≤ (vector + 1).toNat) :
    SameButPushedDecimal (stackCell (s.sp - 2)) (enterHandler vector ret b s)
      (enterHandler vector ret b s') := by
  have hwf : Memory.wf (push16 ret s).ram := ((hs.push _).push _).1
  have hsp : (push16 ret s).sp = s.sp - 2 := by
    rw [push16, push_sp, push_sp]
    bv_omega
  have hpush := pushedDecimal_push (h.push16 ret) hwf (h.ppush_and b)
  rw [hsp] at hpush
  exact pushedDecimal_loadPc (pushedDecimal_withI hpush true) hl hh

theorem mnemonic_eq_php_iff {i : Instr} : i.mnemonic = "PHP" ↔ i = .php := by
  cases i <;> simp [Instr.mnemonic]

theorem mnemonic_eq_brk_iff {i : Instr} : i.mnemonic = "BRK" ↔ ∃ pad, i = .brk pad := by
  cases i <;> simp [Instr.mnemonic]

/-- Settles O20: an instruction that pushes no status keeps the two states alike; PHP and BRK push
bytes that differ at most in bit 3, and what follows that push keeps the relation. -/
theorem decimalFlagChangesNoResult : Obligations.DecimalFlagChangesNoResult := by
  intro i s s' t t' h ht ht'
  have ha := sameButDecimal_iff.1 h
  refine ⟨fun hi => ?_, fun hi hs => ?_, fun hi hs => ?_⟩
  · obtain ⟨u, u', hu, hu', hau⟩ := ha.exec i (.inr hi)
    cases ht.symm.trans hu
    cases ht'.symm.trans hu'
    exact sameButDecimal_iff.2 hau
  · obtain rfl := mnemonic_eq_php_iff.1 hi
    cases ht
    cases ht'
    have hpush := pushedDecimal_push ha hs.1 (ha.ppush_and true)
    simp only [push_pc, ha.registers]
    exact pushedDecimal_withCycles (pushedDecimal_withPc hpush _) _
  · obtain ⟨pad, rfl⟩ := mnemonic_eq_brk_iff.1 hi
    cases ht
    cases ht'
    rw [ha.value State.pc fun _ => rfl]
    exact pushedDecimal_withCycles
      (pushedDecimal_enterHandler ha hs _ (vector := irqVector) true (by decide) (by decide)) 7

end Sys2Proof.Machine
end

section
/-!
PROOFS. The statements of spec/20_memory.md: what a bus read and a bus write do in each region of
the memory map (R51 to R59), the stack (R63, R64), and that the next read and the next fetch see
what the core and the environment wrote (R68, R70, R71).

A write of the bus or of the environment is one relation, `StoresByte`. Pushes one after the other
are `AfterPushes`, built push by push; the pops after them read the bytes back.
-/

open Sys2Proof Sys2Proof.Machine Sys2Proof.Statement

namespace Sys2Proof.Machine

/-! ### The bytes of a word in the plain arithmetic of the statements -/

theorem hi_eq_highByte (w : Word) : hi w = highByte w := by
  apply BitVec.eq_of_toNat_eq
  simp [hi, highByte, Nat.shiftRight_eq_div_pow]

theorem lo_eq_lowByte (w : Word) : lo w = lowByte w := by
  apply BitVec.eq_of_toNat_eq
  simp [lo, lowByte]

theorem wordOf_highByte_lowByte (w : Word) : wordOf (highByte w) (lowByte w) = w := by
  have hw := w.isLt
  apply BitVec.eq_of_toNat_eq
  simp only [wordOf, highByte, lowByte, BitVec.toNat_ofNat]
  omega

/-! ### A bus read -/

/-- From 0x4000 up an address names neither RAM nor a PPU register (R51). -/
theorem regionOf_ne_of_ge {a : Word} (h : 0x4000 ≤ a.toNat) :
    regionOf a ≠ .ram ∧ regionOf a ≠ .ppu := by
  rw [Ne, regionOf_eq_ram_iff, Ne, regionOf_eq_ppu_iff]
  omega

/-- The three stub windows read 0 (R56 to R58). -/
theorem peek_of_stub (s : State) {a : Word} (h : 0x4000 ≤ a.toNat) (h' : a.toNat ≤ 0x7FFF) :
    s.peek a = 0x00 := by
  obtain ⟨hram, hppu⟩ := regionOf_ne_of_ge h
  have hprg : regionOf a ≠ .prg := mt regionOf_eq_prg_iff.1 (by omega)
  cases hr : regionOf a with
  | ram => exact absurd hr hram
  | ppu => exact absurd hr hppu
  | prg => exact absurd hr hprg
  | apuIo | expansion | cartRam => simp only [State.peek, hr]

theorem memRead16_eq_wordAt (a : Word) (s : State) :
    memRead16 a s =
      (wordAt s a, { s with trace := s.trace ++ [readAt s a, readAt s (a + 1)] }) := by
  simp [memRead16_eq, join_eq_wordOf, wordAt, readAt, State.logged]

/-- Settles O22, region by region. -/
theorem busReadByRegion : Obligations.BusReadByRegion := by
  intro a s
  exact ⟨rfl, memRead16_eq_wordAt a s, fun h => peek_of_ram s (by omega),
    fun h h' => peek_of_ppu s h (by omega), peek_of_stub s, peek_of_prg s⟩

/-- Settles O25: with one bank both addresses have one offset; with two, every offset of the window
lies inside PRG. -/
theorem prgWindowMirrorsOneBank : Obligations.PrgWindowMirrorsOneBank := by
  intro s a ha
  refine ⟨fun hbanks hle => ?_, fun hbanks => ?_⟩
  · have hup : (a + 0x4000).toNat = a.toNat + 0x4000 := by bv_omega
    have hoffset : (a.toNat + 0x4000 - 0x8000) % 16384 = (a.toNat - 0x8000) % 16384 := by omega
    rw [peek_of_prg s ha, peek_of_prg s (by omega), hup, hbanks, Nat.one_mul, hoffset]
  · have hlt := a.isLt
    rw [peek_of_prg s ha, Nat.mod_eq_of_lt (by omega)]

/-! ### A bus write -/

/-- What every address reads after a write, by the cell it names (R52). -/
theorem memWrite_peek_eq {s : State} (h : s.Inv) (a : Word) (v : Byte) (b : Word) :
    (memWrite a v s).peek b = if SameCell a b then v else s.peek b := by
  simp only [memWrite_peek s h.1, sameCell_iff]

theorem storesByte_memWrite {s : State} (h : s.Inv) (a : Word) (v : Byte) :
    StoresByte s (memWrite a v s) a v :=
  fun b => ⟨fun hb => by rw [memWrite_peek_eq h, if_pos hb],
    fun hb => by rw [memWrite_peek_eq h, if_neg hb]⟩

/-- A write changes RAM, the PPU registers and the trace alone (R52). -/
theorem memWrite_frame (a : Word) (v : Byte) (s : State) :
    memWrite a v s = { s with ram := (memWrite a v s).ram, ppu := (memWrite a v s).ppu
                              trace := s.trace ++ [.write a v] } := by
  unfold memWrite State.poke
  cases regionOf a <;> rfl

/-- From 0x4000 up a write is discarded (R52). -/
theorem poke_of_ge {a : Word} (h : 0x4000 ≤ a.toNat) (v : Byte) (s : State) : s.poke a v = s := by
  obtain ⟨hram, hppu⟩ := regionOf_ne_of_ge h
  cases hr : regionOf a with
  | ram => exact absurd hr hram
  | ppu => exact absurd hr hppu
  | apuIo | expansion | cartRam | prg => simp only [State.poke, hr]

/-- No address names both the cell of `a` and that of the next address: no store has one cell. -/
theorem not_sameCell_of_succ {a b : Word} (h : SameCell a b) : ¬ SameCell (a + 1) b := by
  have hsucc : (a + 1).toNat = (a.toNat + 1) % 65536 := by rw [BitVec.toNat_add]; rfl
  simp only [SameCell, hsucc] at h ⊢
  omega

/-- A two-byte write changes RAM, the PPU registers and the trace alone (R13, R52). -/
theorem memWrite16_frame (a w : Word) (s : State) :
    memWrite16 a w s = { s with
      ram := (memWrite16 a w s).ram, ppu := (memWrite16 a w s).ppu
      trace := s.trace ++ [.write a (lowByte w), .write (a + 1) (highByte w)] } := by
  simpa [memWrite16, hi_eq_highByte, lo_eq_lowByte] using
    memWrite_frame (a + 1) (hi w) (memWrite a (lo w) s)

/-- What every address reads after a two-byte write, by the cell it names (R13, R52). -/
theorem memWrite16_peek_eq {s : State} (h : s.Inv) (a w b : Word) :
    (memWrite16 a w s).peek b =
      if SameCell (a + 1) b then highByte w else if SameCell a b then lowByte w else s.peek b := by
  simp only [memWrite16_peek s h, sameCell_iff, hi_eq_highByte, lo_eq_lowByte]

/-- Settles O23, by the cells a write and a two-byte write name. -/
theorem busWriteByRegion : Obligations.BusWriteByRegion := by
  intro a v s hs
  refine ⟨storesByte_memWrite hs a v, memWrite_frame a v s, fun ha => ?_, fun w =>
    ⟨memWrite16_frame a w s, fun b => ?_⟩⟩
  · simp [memWrite, poke_of_ge ha]
  · simp only [memWrite16_peek_eq hs]
    refine ⟨fun hb => ?_, fun hb => if_pos hb, fun hb hb' => ?_⟩
    · rw [if_neg (not_sameCell_of_succ hb), if_pos hb]
    · rw [if_neg hb', if_neg hb]

/-- Settles O24: the mirrors of a RAM byte differ by multiples of 0x800, those of a PPU register by
multiples of 8. -/
theorem mirrorsNameOneCell : Obligations.MirrorsNameOneCell := by
  intro s v hs
  refine ⟨fun k i j hk hi hj => ?_, fun k i j hk hi hj => ?_⟩ <;>
    rw [memWrite_peek_eq hs, if_pos]
  · left
    simp only [BitVec.toNat_ofNat]
    omega
  · right
    simp only [BitVec.toNat_ofNat]
    omega

/-- The bytes a tick decodes, as the bus reads them (R102, R103). -/
theorem fetchedInstr_eq (s : State) :
    fetchedInstr s = decode (s.peek s.pc) (s.peek (s.pc + 1)) (s.peek (s.pc + 2)) := rfl

/-- Settles O29: a fetch reads the bus, and the bus reads what the write stored. -/
theorem fetchSeesEarlierWrites : Obligations.FetchSeesEarlierWrites := by
  intro s a v hs
  simp only [fetchedInstr_eq, memWrite_pc, memWrite_peek_eq hs]

/-! ### Environment writes -/

/-- A write of a PPU register cell shows at the addresses of that cell, in RAM and PRG nowhere. -/
theorem peek_setPpu (s : State) {k : Nat} (hk : k < 8) (v : Byte) (b : Word) :
    { s with ppu := s.ppu.set k v }.peek b =
      if regionOf b = .ppu ∧ k = ppuIndex b then v else s.peek b := by
  cases hb : regionOf b with
  | ppu => simp [State.peek, hb, PpuRegs.get_set _ hk (ppuIndex_lt b)]
  | ram | apuIo | expansion | cartRam | prg => simp [State.peek, hb]

theorem sameCell_ppuCell_iff (k : Fin 8) (b : Word) :
    SameCell (BitVec.ofNat 16 (0x2000 + k.val)) b ↔ regionOf b = .ppu ∧ k.val = ppuIndex b := by
  have hk := k.isLt
  simp only [SameCell, regionOf_eq_ppu_iff, ppuIndex_eq, BitVec.toNat_ofNat]
  omega

theorem storesByte_ppuWrite (s : State) (k : Fin 8) (v : Byte) :
    StoresByte s { s with ppu := s.ppu.set k.val v } (BitVec.ofNat 16 (0x2000 + k.val)) v := by
  intro b
  rw [sameCell_ppuCell_iff, peek_setPpu s k.isLt]
  exact ⟨fun hb => if_pos hb, fun hb => if_neg hb⟩

/-- An environment write of a RAM cell stores what the bus would at the cell's lowest address. -/
theorem storesByte_ramWrite {s : State} (h : s.Inv) (k : Fin 2048) (v : Byte) :
    StoresByte s { s with ram := s.ram.write k.val v } (BitVec.ofNat 16 k.val) v := by
  have hk := k.isLt
  have ha : (BitVec.ofNat 16 k.val).toNat = k.val := by rw [BitVec.toNat_ofNat]; omega
  have hr : regionOf (BitVec.ofNat 16 k.val) = .ram := regionOf_eq_ram_iff.2 (by omega)
  have hpoke : s.poke (BitVec.ofNat 16 k.val) v = { s with ram := s.ram.write k.val v } := by
    simp only [State.poke, hr, ramIndex_eq, ha, Nat.mod_eq_of_lt hk]
  rw [← hpoke]
  exact storesByte_memWrite h (BitVec.ofNat 16 k.val) v

/-- Settles O59, by the two writes of `envStep`. -/
theorem environmentWritesAreSeen : Obligations.EnvironmentWritesAreSeen := by
  intro s v
  refine ⟨fun k => ⟨_, rfl, storesByte_ppuWrite s k v, rfl⟩, fun k => ⟨fun hw => ?_, fun hw => ?_⟩⟩
  · exact ⟨_, by rw [envStep, if_pos hw], fun hs => storesByte_ramWrite hs k v, rfl⟩
  · simp [envStep, hw]

/-! ### The stack -/

/-- Different values of SP name different cells, for the stack page is shorter than RAM (R23). -/
theorem sameCell_stackCell_iff (sp sp' : Byte) :
    SameCell (stackCell sp) (stackCell sp') ↔ sp = sp' := by
  have h := sp.isLt
  have h' := sp'.isLt
  simp only [SameCell, stackCell_toNat, BitVec.toNat_eq]
  omega

/-- What every address reads after a push, by the cell it names (R63). -/
theorem push_peek_eq {s : State} (h : s.Inv) (v : Byte) (b : Word) :
    (push v s).peek b = if SameCell (stackCell s.sp) b then v else s.peek b := by
  simp only [push_peek s h.1, sameCell_iff, stackAddr_eq_stackCell]

theorem afterPushes_nil (s : State) : AfterPushes s s [] :=
  ⟨(BitVec.sub_zero s.sp).symm, by simp, fun _ _ => rfl⟩

/-- One more push, as long as the page has a cell left that none of the earlier ones took. -/
theorem afterPushes_push {s t : State} {bs : List Byte} (h : AfterPushes s t bs) (ht : t.Inv)
    (hlen : bs.length < 256) (v : Byte) : AfterPushes s (push v t) (bs ++ [v]) := by
  obtain ⟨hsp, hpushed, hother⟩ := h
  have hcell : ∀ k < bs.length, ¬ SameCell (stackCell t.sp)
      (stackCell (s.sp - BitVec.ofNat 8 k)) := by
    intro k hk
    rw [sameCell_stackCell_iff, hsp]
    bv_omega
  simp only [AfterPushes, List.length_append, List.length_singleton, push_peek_eq ht]
  refine ⟨?_, fun k hk => ?_, fun b hb => ?_⟩
  · rw [push_sp, hsp]
    bv_omega
  · obtain hk | rfl := Nat.lt_succ_iff_lt_or_eq.1 hk
    · rw [if_neg (hcell k hk), hpushed k hk, List.getD_append _ _ _ _ hk]
    · rw [← hsp, if_pos ((sameCell_stackCell_iff _ _).2 rfl)]
      simp
  · rw [hsp, if_neg (hb bs.length (Nat.lt_succ_self _)),
      hother b fun k hk => hb k (Nat.lt_succ_of_lt hk)]

theorem afterPushes_push_one {s : State} (h : s.Inv) (v : Byte) : AfterPushes s (push v s) [v] :=
  afterPushes_push (afterPushes_nil s) h (by decide) v

/-- A 16-bit push is the push of the high byte, then of the low byte (R64). -/
theorem afterPushes_push16 {s : State} (h : s.Inv) (w : Word) :
    AfterPushes s (push16 w s) [highByte w, lowByte w] := by
  rw [push16, hi_eq_highByte, lo_eq_lowByte]
  exact afterPushes_push (afterPushes_push_one h _) (h.push _) (by decide : 1 < 256) _

theorem push16_trace (w : Word) (s : State) :
    (push16 w s).trace = s.trace ++ pushWrites s.sp [highByte w, lowByte w] := by
  simp [push16, pushWrites, List.range_succ, stackAddr_eq_stackCell, hi_eq_highByte, lo_eq_lowByte]

/-- The pops after pushes read the pushed bytes back, the last one first (R64). -/
theorem popped_of_afterPushes {s t : State} {bs : List Byte} (h : AfterPushes s t bs) {k n : Nat}
    (hn : 0 < n) (hk : k + n = bs.length) : popped t n = bs.getD k 0 := by
  obtain ⟨hsp, hpushed, -⟩ := h
  have hcell : t.sp + BitVec.ofNat 8 n = s.sp - BitVec.ofNat 8 k := by
    rw [hsp, ← hk]
    bv_omega
  rw [popped, hcell, hpushed k (by omega)]

/-- A pop in the terms of the statements (R64). -/
theorem pop_eq_popped (s : State) :
    pop s = (popped s 1, { s with sp := s.sp + 1, trace := s.trace ++ [popRead s 1] }) := by
  rw [pop_eq, stackAddr_eq_stackCell]
  rfl

/-- A 16-bit pop in the terms of the statements: low byte first (R64). -/
theorem pop16_eq_popped (s : State) :
    pop16 s = (wordOf (popped s 2) (popped s 1),
      { s with sp := s.sp + 2, trace := s.trace ++ [popRead s 1, popRead s 2] }) := by
  have hsp : s.sp + 1 + 1 = s.sp + 2 := by rw [BitVec.add_assoc]; rfl
  rw [pop16_eq, hsp]
  simp [stackAddr_eq_stackCell, join_eq_wordOf, popped, popRead, readAt,
    State.logged, State.withSp]

/-- Settles O26, by the one push. -/
theorem pushWritesThenSpFalls : Obligations.PushWritesThenSpFalls := by
  intro v s hs
  have hsp : s.sp - 1 = BitVec.ofNat 8 (s.sp.toNat + 255) := by bv_omega
  refine ⟨afterPushes_push_one hs v, ?_⟩
  rw [push_eq, hsp, stackAddr_eq_stackCell]

/-- Settles O27: the two pops read the two pushed bytes back, wherever SP stood. -/
theorem popGivesBackWhatWasPushed : Obligations.PopGivesBackWhatWasPushed := by
  intro s w hs
  have hpushed := afterPushes_push16 hs w
  have hhigh : popped (push16 w s) 2 = highByte w :=
    popped_of_afterPushes hpushed (k := 0) (by decide) rfl
  have hlow : popped (push16 w s) 1 = lowByte w :=
    popped_of_afterPushes hpushed (k := 1) (by decide) rfl
  refine ⟨pop_eq_popped s, hpushed, push16_trace w s, pop16_eq_popped s, ?_, ?_⟩
  · rw [pop16_eq_popped, hhigh, hlow, wordOf_highByte_lowByte]
  · rw [pop16_eq_popped]
    simp only [push16, push_sp]
    bv_omega

end Sys2Proof.Machine
end

section
/-!
PROOFS. The statements of spec/30_encoding.md: the decoder against the opcode table (R83 to R85,
R87, R90), decode and encode as inverses (R80 to R87), and the offset byte of a branch (R88).

Both inverses turn on `Instr.withOperand`: an instruction with its operand taken from the two
bytes of a fetch (R82). The opcode byte alone fixes the form, so decoding is `withOperand` on any
instruction with that opcode (R87); what is left is the operand, one addressing mode at a time.
-/

open Sys2Proof Sys2Proof.Machine

namespace Sys2Proof

/-! ### A word and its two bytes -/

@[simp] theorem join_hi_lo (w : Word) : join (hi w) (lo w) = w :=
  (BitVec.extractLsb'_append_extractLsb'_eq_extractLsb' rfl).trans BitVec.extractLsb'_eq_self

@[simp] theorem lo_join (h l : Byte) : lo (join h l) = l :=
  BitVec.extractLsb'_append_eq_right

@[simp] theorem hi_join (h l : Byte) : hi (join h l) = h :=
  BitVec.extractLsb'_append_eq_left

/-! ### The decoder against the table -/

/-- The row the decoder finds, byte by byte of the opcode map, whatever the operand bytes
(R83, R84). -/
theorem decode_row (op l h : Byte) :
    (decode op l h).mnemonic = (rowOf op).mnemonic ∧ (decode op l h).mode = (rowOf op).mode ∧
    (decode op l h).size = (rowOf op).length ∧ (decode op l h).opcode = some op ∧
    (rowOf op).defined = (decode op l h != .undef op) := by
  obtain ⟨n, hn, rfl⟩ : ∃ n < 256, op = BitVec.ofNat 8 n := ⟨op.toNat, op.isLt, by simp⟩
  interval_cases n <;> exact ⟨rfl, rfl, rfl, rfl, rfl⟩

theorem decode_opcode (op l h : Byte) : (decode op l h).opcode = some op := by
  obtain ⟨-, -, -, hopcode, -⟩ := decode_row op l h
  exact hopcode

/-- The bytes R85 lists are the ones outside the opcode map. -/
theorem decode_eq_undef_iff (op l h : Byte) :
    decode op l h = .undef op ↔ op ∈ undefinedBytes := by
  refine ⟨fun heq => ?_, fun hop => ?_⟩
  · simpa [heq, Instr.wellFormed] using decode_wellFormed op l h
  · fin_cases hop <;> rfl

theorem row_defined_eq_false_iff (op : Byte) :
    (rowOf op).defined = false ↔ op ∈ undefinedBytes := by
  obtain ⟨-, -, -, -, hdefined⟩ := decode_row op 0 0
  rw [hdefined, ← decode_eq_undef_iff op 0 0]
  simp

/-- Settles O4, by the row the decoder finds. -/
theorem decoderAgreesWithOpcodeTable : Obligations.DecoderAgreesWithOpcodeTable := by
  intro op l h
  obtain ⟨hmnemonic, hmode, hsize, hopcode, -⟩ := decode_row op l h
  exact ⟨hmnemonic, hmode, hsize, hopcode, row_defined_eq_false_iff op, rfl⟩

/-- Settles O1: each word is run through the opcode map. -/
theorem decodesWordsWrittenOut : Obligations.DecodesWordsWrittenOut := by
  unfold Obligations.DecodesWordsWrittenOut
  decide

/-! ### An operand taken from the fetched bytes (R82) -/

/-- A memory mode with its operand from the fetched bytes `l` and `h`. -/
def MemMode.withOperand (l h : Byte) : MemMode → MemMode
  | .zp _ => .zp l
  | .zpX _ => .zpX l
  | .zpY _ => .zpY l
  | .abs _ => .abs (join h l)
  | .absX _ => .absX (join h l)
  | .absY _ => .absY (join h l)
  | .indX _ => .indX l
  | .indY _ => .indY l

/-- A read-class form with its operand from the fetched bytes. -/
def ReadMode.withOperand (l h : Byte) : ReadMode → ReadMode
  | .imm _ => .imm l
  | .mem m => .mem (m.withOperand l h)

/-- A shift form with its operand from the fetched bytes. -/
def ShiftMode.withOperand (l h : Byte) : ShiftMode → ShiftMode
  | .acc => .acc
  | .mem m => .mem (m.withOperand l h)

/-- An instruction with its operand from the fetched bytes; one that has none stays as it is. -/
def Instr.withOperand (l h : Byte) : Instr → Instr
  | .lda o => .lda (o.withOperand l h)
  | .ldx o => .ldx (o.withOperand l h)
  | .ldy o => .ldy (o.withOperand l h)
  | .adc o => .adc (o.withOperand l h)
  | .sbc o => .sbc (o.withOperand l h)
  | .and o => .and (o.withOperand l h)
  | .ora o => .ora (o.withOperand l h)
  | .eor o => .eor (o.withOperand l h)
  | .cmp o => .cmp (o.withOperand l h)
  | .cpx o => .cpx (o.withOperand l h)
  | .cpy o => .cpy (o.withOperand l h)
  | .sta m => .sta (m.withOperand l h)
  | .stx m => .stx (m.withOperand l h)
  | .sty m => .sty (m.withOperand l h)
  | .bit m => .bit (m.withOperand l h)
  | .inc m => .inc (m.withOperand l h)
  | .dec m => .dec (m.withOperand l h)
  | .asl o => .asl (o.withOperand l h)
  | .lsr o => .lsr (o.withOperand l h)
  | .rol o => .rol (o.withOperand l h)
  | .ror o => .ror (o.withOperand l h)
  | .bpl _ => .bpl l
  | .bmi _ => .bmi l
  | .bvc _ => .bvc l
  | .bvs _ => .bvs l
  | .bcc _ => .bcc l
  | .bcs _ => .bcs l
  | .bne _ => .bne l
  | .beq _ => .beq l
  | .jmpAbs _ => .jmpAbs (join h l)
  | .jmpInd _ => .jmpInd (join h l)
  | .jsr _ => .jsr (join h l)
  | .brk _ => .brk l
  | i => i

theorem opcode_undef_eq_some_iff (b op : Byte) :
    (Instr.undef b).opcode = some op ↔ op ∈ undefinedBytes ∧ b = op := by
  simp only [Instr.opcode, List.contains_iff_mem, Option.ite_none_right_eq_some, Option.some.injEq]
  exact ⟨fun ⟨hb, h⟩ => ⟨h ▸ hb, h⟩, fun ⟨hb, h⟩ => ⟨h ▸ hb, h⟩⟩

/-- The opcode byte fixes everything but the operand: decoding it gives any instruction with that
opcode byte, its operand from the fetched bytes (R82, R87). -/
theorem decode_of_opcode {i : Instr} {op : Byte} (hop : i.opcode = some op) (l h : Byte) :
    decode op l h = i.withOperand l h := by
  cases i with
  | lda o | ldx o | ldy o | adc o | sbc o | and o | ora o | eor o | cmp o | cpx o | cpy o =>
    rcases o with _ | (_ | _ | _ | _ | _ | _ | _ | _) <;> cases hop <;> rfl
  | sta m | stx m | sty m | bit m | inc m | dec m => cases m <;> cases hop <;> rfl
  | asl o | lsr o | rol o | ror o =>
    rcases o with _ | (_ | _ | _ | _ | _ | _ | _ | _) <;> cases hop <;> rfl
  | undef b =>
    obtain ⟨hmem, rfl⟩ := (opcode_undef_eq_some_iff b op).1 hop
    exact (decode_eq_undef_iff b l h).2 hmem
  | _ => cases hop; rfl

section
variable (l h : Byte)

/-! The operand bytes are the fetched ones, as many as the length leaves (R80, R81). -/

theorem MemMode.operandBytes_withOperand (m : MemMode) :
    (m.withOperand l h).operandBytes = [l, h].take (m.size - 1) := by
  cases m <;> simp [MemMode.withOperand, MemMode.operandBytes, operandWord, MemMode.size]

theorem ReadMode.operandBytes_withOperand (o : ReadMode) :
    (o.withOperand l h).operandBytes = [l, h].take (o.size - 1) := by
  cases o with
  | imm v => rfl
  | mem m => exact m.operandBytes_withOperand l h

theorem ShiftMode.operandBytes_withOperand (o : ShiftMode) :
    (o.withOperand l h).operandBytes = [l, h].take (o.size - 1) := by
  cases o with
  | acc => rfl
  | mem m => exact m.operandBytes_withOperand l h

theorem Instr.operandBytes_withOperand (i : Instr) :
    (i.withOperand l h).operandBytes = [l, h].take (i.size - 1) := by
  cases i with
  | lda o | ldx o | ldy o | adc o | sbc o | and o | ora o | eor o | cmp o | cpx o | cpy o =>
    exact o.operandBytes_withOperand l h
  | sta m | stx m | sty m | bit m | inc m | dec m => exact m.operandBytes_withOperand l h
  | asl o | lsr o | rol o | ror o => exact o.operandBytes_withOperand l h
  | jmpAbs w | jmpInd w | jsr w =>
    simp [Instr.withOperand, Instr.operandBytes, operandWord, Instr.size]
  | _ => rfl

end

/-! ### The bytes of an encoding (R80) -/

/-- The table has an opcode byte for exactly the well-formed instructions (R84, R85). -/
theorem wellFormed_eq_isSome_opcode (i : Instr) : i.wellFormed = i.opcode.isSome := by
  cases i with
  | lda o | ldx o | ldy o | adc o | sbc o | and o | ora o | eor o | cmp o | cpx o | cpy o =>
    rcases o with _ | (_ | _ | _ | _ | _ | _ | _ | _) <;> rfl
  | sta m | stx m | sty m | bit m | inc m | dec m => cases m <;> rfl
  | asl o | lsr o | rol o | ror o => rcases o with _ | (_ | _ | _ | _ | _ | _ | _ | _) <;> rfl
  | undef op => exact Laws.OpcodeKnown.undef op
  | _ => rfl

theorem exists_opcode_of_wellFormed {i : Instr} (hwf : i.wellFormed = true) :
    ∃ op, i.opcode = some op := by
  rwa [wellFormed_eq_isSome_opcode, Option.isSome_iff_exists] at hwf

theorem encode_of_opcode {i : Instr} {op : Byte} (hop : i.opcode = some op) :
    encode i = op :: i.operandBytes := by
  rw [encode, hop]

/-- The length counts the opcode byte and the operand bytes (R80, R81). -/
theorem operandBytes_length (i : Instr) : i.operandBytes.length + 1 = i.size := by
  cases i with
  | lda o | ldx o | ldy o | adc o | sbc o | and o | ora o | eor o | cmp o | cpx o | cpy o =>
    rcases o with _ | (_ | _ | _ | _ | _ | _ | _ | _) <;> rfl
  | sta m | stx m | sty m | bit m | inc m | dec m => cases m <;> rfl
  | asl o | lsr o | rol o | ror o => rcases o with _ | (_ | _ | _ | _ | _ | _ | _ | _) <;> rfl
  | _ => rfl

/-- What a list of bytes long enough for its first instruction decodes to. -/
theorem decodeBytes_cons {i : Instr} {op : Byte} {bs : List Byte}
    (h : decode op (bs.getD 0 0) (bs.getD 1 0) = i) (hsize : i.size ≤ bs.length + 1) :
    decodeBytes (op :: bs) = .ok (i, (op :: bs).drop i.size) := by
  simp only [decodeBytes, h]
  exact if_neg (Nat.not_lt.2 hsize)

/-- Settles O3: the fetched bytes are the operand, as far as the length goes. -/
theorem encodingADecodedFetchGivesItsBytes : Obligations.EncodingADecodedFetchGivesItsBytes := by
  intro op l h
  refine ⟨decode_wellFormed op l h, ?_⟩
  have hop := decode_opcode op l h
  have hbytes := (decode op l h).operandBytes_withOperand l h
  rw [← decode_of_opcode hop] at hbytes
  rw [encode_of_opcode hop, hbytes, ← operandBytes_length]
  rfl

/-! ### The operand read back from the bytes of an encoding -/

section
variable (rest : List Byte)

/-! Whatever bytes follow, the first ones of the encoding's tail are the operand's (R82, R86). -/

theorem MemMode.withOperand_operandBytes (m : MemMode) :
    m.withOperand ((m.operandBytes ++ rest).getD 0 0) ((m.operandBytes ++ rest).getD 1 0) = m := by
  cases m <;> simp [MemMode.withOperand, MemMode.operandBytes, operandWord]

theorem ReadMode.withOperand_operandBytes (o : ReadMode) :
    o.withOperand ((o.operandBytes ++ rest).getD 0 0) ((o.operandBytes ++ rest).getD 1 0) = o := by
  cases o with
  | imm v => rfl
  | mem m => exact congrArg ReadMode.mem (m.withOperand_operandBytes rest)

theorem ShiftMode.withOperand_operandBytes (o : ShiftMode) :
    o.withOperand ((o.operandBytes ++ rest).getD 0 0) ((o.operandBytes ++ rest).getD 1 0) = o := by
  cases o with
  | acc => rfl
  | mem m => exact congrArg ShiftMode.mem (m.withOperand_operandBytes rest)

theorem Instr.withOperand_operandBytes (i : Instr) :
    i.withOperand ((i.operandBytes ++ rest).getD 0 0) ((i.operandBytes ++ rest).getD 1 0) = i := by
  cases i with
  | lda o | ldx o | ldy o | adc o | sbc o | and o | ora o | eor o | cmp o | cpx o | cpy o =>
    exact congrArg _ (o.withOperand_operandBytes rest)
  | sta m | stx m | sty m | bit m | inc m | dec m =>
    exact congrArg _ (m.withOperand_operandBytes rest)
  | asl o | lsr o | rol o | ror o => exact congrArg _ (o.withOperand_operandBytes rest)
  | jmpAbs w | jmpInd w | jsr w => exact congrArg _ (join_hi_lo w)
  | _ => rfl

end

/-- Settles O2: the opcode byte gives the form, the bytes after it the operand. -/
theorem decodingAnEncodingGivesItBack : Obligations.DecodingAnEncodingGivesItBack := by
  intro i rest hwf
  obtain ⟨op, hop⟩ := exists_opcode_of_wellFormed hwf
  have hdecode := (decode_of_opcode hop _ _).trans (i.withOperand_operandBytes rest)
  have hsize := operandBytes_length i
  rw [encode_of_opcode hop, List.cons_append, decodeBytes_cons hdecode (by simp; omega), ← hsize]
  simp

/-! ### The offset byte of a branch (R88) -/

theorem toInt_signExtend_inRange (off : Byte) :
    -128 ≤ (off.signExtend 16).toInt ∧ (off.signExtend 16).toInt ≤ 127 := by
  rw [BitVec.toInt_signExtend_of_le (by decide)]
  have := off.toInt_lt
  have := off.le_toInt
  omega

theorem lo_signExtend (off : Byte) : lo (off.signExtend 16) = off := by
  rw [BitVec.signExtend_eq_append_of_le (by decide)]
  exact lo_join _ off

/-- A word in the range of an offset byte is its low byte, sign-extended. -/
theorem signExtend_lo {d : Word} (h : -128 ≤ d.toInt ∧ d.toInt ≤ 127) :
    (lo d).signExtend 16 = d := by
  apply BitVec.eq_of_toInt_eq
  rw [BitVec.toInt_signExtend_of_le (by decide), lo_eq_lowByte, Statement.lowByte]
  simp only [BitVec.toInt_eq_toNat_cond, BitVec.toNat_ofNat] at h ⊢
  omega

/-- The assembler's offset is the one byte that reaches the target. -/
theorem branchOffset_eq_some_iff (pc target : Word) (off : Byte) :
    branchOffset pc target = some off ↔ pc + 2 + off.signExtend 16 = target := by
  simp only [branchOffset, Option.ite_none_right_eq_some, Option.some.injEq]
  constructor
  · rintro ⟨hrange, rfl⟩
    rw [signExtend_lo hrange, BitVec.add_comm, BitVec.sub_add_cancel]
  · rintro rfl
    rw [BitVec.add_comm, BitVec.add_sub_cancel]
    exact ⟨toInt_signExtend_inRange off, lo_signExtend off⟩

/-- Settles O6: an offset is given exactly when it reaches the target. -/
theorem assembledBranchReachesItsTarget : Obligations.AssembledBranchReachesItsTarget := by
  intro pc target
  refine ⟨fun off h => (branchOffset_eq_some_iff pc target off).1 h, ?_⟩
  simp only [Option.eq_none_iff_forall_ne_some, ne_eq, branchOffset_eq_some_iff]

end Sys2Proof
end

section
/-!
PROOFS. The statements of spec/40_engine_and_addressing.md: which transition a tick takes and what
it does to PC and the latches (R100 to R105, R255, R256), the fetch and the model's loader of a word
(R103), the addressing modes (R109 to R117), and the count of an instruction against its row of the
opcode table (R84, R120 to R123).
-/

open Sys2Proof Sys2Proof.Machine Sys2Proof.Statement

namespace Sys2Proof.Machine

/-! ### The fetch -/

/-- The three fetch reads stand in the trace in order, and PC is still the opcode's address
(R103, R104). -/
theorem afterFetch_eq_fetchedState (s : State) : afterFetch s = fetchedState s := rfl

/-- Settles O7: the tick executes, and its fetch is the three reads. -/
theorem stepRunsDecodedInstruction : Obligations.StepRunsDecodedInstruction := by
  intro s h
  rw [step_of_noRequest h, fetchedInstr_eq, afterFetch_eq_fetchedState]

/-! ### PC and the latches after an instruction -/

/-- PC moves on modulo 65536 (R104). -/
theorem add_ofNat_eq_ofNat_toNat_add (w : Word) (n : Nat) :
    w + BitVec.ofNat 16 n = BitVec.ofNat 16 (w.toNat + n) := by
  simp [BitVec.ofNat_add]

@[simp] theorem enterHandler_latches (vector ret : Word) (b : Bool) (s : State) :
    (enterHandler vector ret b s).resetReq = s.resetReq ∧
    (enterHandler vector ret b s).nmiReq = s.nmiReq ∧
    (enterHandler vector ret b s).irqReq = s.irqReq := by
  simp [enterHandler, push16, memRead16]

/-- The instructions that transfer control: a branch, a jump, a return and BRK (R104). -/
def transfersControl (i : Instr) : Prop :=
  i.mnemonic ∈ ["BPL", "BMI", "BVC", "BVS", "BCC", "BCS", "BNE", "BEQ", "JMP", "JSR", "RTS", "RTI",
    "BRK"]

/-- Class by class: an instruction that transfers no control leaves PC past itself, and none touches
a latch (R35, R104, R105). -/
theorem exec_pc_latches {i : Instr} {s t : State} (h : exec i s = .next t) :
    (t.pc = s.pc + BitVec.ofNat 16 i.size ∨ transfersControl i) ∧
    (t.resetReq, t.nmiReq, t.irqReq) = (s.resetReq, s.nmiReq, s.irqReq) := by
  cases i with
  | lda o | ldx o | ldy o | adc o | sbc o | and o | ora o | eor o | cmp o | cpx o | cpy o =>
    cases h; simp [Instr.size, readOperand_eq, addInto]
  | bit m => cases h; simp [Instr.size, readMem_eq]
  | sta m | stx m | sty m => cases h; simp [Instr.size, writeMem_eq]
  | inc m | dec m => cases h; simp [Instr.size, modifyMem_eq]
  | asl o | lsr o | rol o | ror o =>
    cases h
    cases o with
    | acc => simp [Instr.size, modifyShift]
    | mem m => simp [Instr.size, modifyShift, modifyMem_eq]
  | tax | tay | txa | tya | tsx | txs | inx | iny | dex | dey
  | clc | sec | cli | sei | cld | sed | clv | nop | undef op | pha | php =>
    cases h; simp [Instr.size]
  | pla | plp => cases h; simp [Instr.size, pullStatus, pop_eq]
  | bpl off | bmi off | bvc off | bvs off | bcc off | bcs off | bne off | beq off
  | jmpAbs target | jmpInd ptr => cases h; simp [transfersControl, Instr.mnemonic]
  | jsr target => cases h; simp [transfersControl, Instr.mnemonic, push16]
  | brk pad => cases h; simp [transfersControl, Instr.mnemonic]
  | rts | rti =>
    cases h
    simp [transfersControl, Instr.mnemonic, pullStatus, returnFromHandler, pop_eq, pop16_eq]

/-- Settles O57, by what an instruction of each class does to PC and to the latches. -/
theorem pcAdvancesByTheLength : Obligations.PcAdvancesByTheLength := by
  intro i s t h
  rw [← add_ofNat_eq_ofNat_toNat_add]
  exact exec_pc_latches h

/-! ### The transition of a tick and the latch it clears -/

/-- A pending reset goes first (R100, R255). -/
theorem step_of_resetReq {s : State} (h : s.resetReq = true) :
    step s = .next (serviceReset s) := by
  simp [step, transitionOf, h]

/-- NMI goes before IRQ (R100, R256). -/
theorem step_of_nmiReq {s : State} (hreset : s.resetReq = false) (h : s.nmiReq = true) :
    step s = .next (serviceNmi s) := by
  simp [step, transitionOf, hreset, h]

/-- IRQ goes last, and only while I is 0 (R100, R256). -/
theorem step_of_irqReq {s : State} (hreset : s.resetReq = false) (hnmi : s.nmiReq = false)
    (h : s.irqReq = true) (hi : s.p.i = false) : step s = .next (serviceIrq s) := by
  simp [step, transitionOf, hreset, hnmi, h, hi]

section
variable (s : State)

theorem serviceReset_latches :
    ((serviceReset s).resetReq, (serviceReset s).nmiReq, (serviceReset s).irqReq) =
      (false, s.nmiReq, s.irqReq) := by
  simp [serviceReset, resetService, memRead16, beginTick]

theorem serviceNmi_latches :
    ((serviceNmi s).resetReq, (serviceNmi s).nmiReq, (serviceNmi s).irqReq) =
      (s.resetReq, false, s.irqReq) := by
  simp [serviceNmi, interruptEntry, beginTick]

theorem serviceIrq_latches :
    ((serviceIrq s).resetReq, (serviceIrq s).nmiReq, (serviceIrq s).irqReq) =
      (s.resetReq, s.nmiReq, false) := by
  simp [serviceIrq, interruptEntry, beginTick]

end

/-- The latches after a tick that services nothing: only an IRQ that I masks can be pending. -/
theorem step_latches_of_noRequest {s t : State} (h : NoRequest s) (ht : step s = .next t) :
    (t.resetReq, t.nmiReq, t.irqReq) = (s.resetReq, s.nmiReq, s.irqReq) := by
  rw [step_of_noRequest h] at ht
  obtain ⟨-, hlatches⟩ := exec_pc_latches ht
  exact hlatches

/-- Settles O12, by the transition the tick takes. -/
theorem eachTickClearsOnlyTheLatchItServices :
    Obligations.EachTickClearsOnlyTheLatchItServices := by
  intro s t ht
  cases hreset : s.resetReq with
  | true =>
    cases (step_of_resetReq hreset).symm.trans ht
    exact serviceReset_latches s
  | false =>
    cases hnmi : s.nmiReq with
    | true =>
      cases (step_of_nmiReq hreset hnmi).symm.trans ht
      rw [serviceNmi_latches, hreset]
      rfl
    | false =>
      by_cases hirq : s.irqReq = true ∧ s.p.i = false
      · obtain ⟨hirq, hi⟩ := hirq
        cases (step_of_irqReq hreset hnmi hirq hi).symm.trans ht
        simp [serviceIrq_latches, hreset, hnmi, hi]
      · have hmasked : s.irqReq = false ∨ s.p.i = true := by
          simpa [imp_iff_not_or] using hirq
        rw [step_latches_of_noRequest ⟨hreset, hnmi, hmasked⟩ ht, hreset, hnmi]
        rcases hmasked with h | h <;> simp [h]

/-! ### A word placed by the model's loader (log entry 6) -/

/-- Offsets less than a store's size apart are different ones in it. -/
theorem mod_ne_add_mod {x d n : Nat} (hd : 0 < d) (hdn : d < n) : x % n ≠ (x + d) % n := by
  intro h
  have hdvd : n ∣ x + d - x := (Nat.modEq_iff_dvd' (Nat.le_add_right x d)).1 h
  rw [Nat.add_sub_cancel_left] at hdvd
  exact absurd (Nat.le_of_dvd hd hdvd) (Nat.not_le.2 hdn)

section
variable {s : State} {a : Word} {v : Byte}

/-- The loader lays a byte in RAM, the PPU registers or PRG and leaves the rest of the state. -/
@[simp] theorem loadByte_frame :
    (s.loadByte a v).a = s.a ∧ (s.loadByte a v).x = s.x ∧ (s.loadByte a v).y = s.y ∧
    (s.loadByte a v).sp = s.sp ∧ (s.loadByte a v).pc = s.pc ∧ (s.loadByte a v).p = s.p ∧
    (s.loadByte a v).params = s.params ∧ (s.loadByte a v).resetReq = s.resetReq ∧
    (s.loadByte a v).nmiReq = s.nmiReq ∧ (s.loadByte a v).irqReq = s.irqReq := by
  unfold State.loadByte
  split <;> simp

/-- Outside PRG the loader writes as the bus does. -/
theorem loadByte_eq_poke (h : regionOf a ≠ .prg) : s.loadByte a v = s.poke a v := by
  cases hr : regionOf a with
  | prg => exact absurd hr h
  | ram | ppu => simp only [State.loadByte, hr]
  | apuIo | expansion | cartRam => simp only [State.loadByte, State.poke, hr]

theorem State.Inv.loadByte (hs : s.Inv) : (s.loadByte a v).Inv := by
  by_cases hr : regionOf a = .prg
  · obtain ⟨hram, hramBelow, hprg, hprgBelow, hbanks⟩ := hs
    have hsize : 0 < s.params.prgBanks * bankSize := Nat.mul_pos hbanks (by decide)
    simp only [State.loadByte, hr]
    exact ⟨hram, hramBelow, Memory.wf_write hprg _ _,
      Memory.below_write hprgBelow (Nat.mod_lt _ hsize) _, hbanks⟩
  · rw [loadByte_eq_poke hr]
    exact hs.poke a v

theorem holdsBytes_iff :
    holdsBytes a = true ↔ regionOf a = .ram ∨ regionOf a = .ppu ∨ regionOf a = .prg := by
  rw [holdsBytes]
  cases regionOf a <;> simp

/-- Where the loader can lay a byte, the bus reads it. -/
theorem peek_loadByte_self (hs : s.Inv) (ha : holdsBytes a = true) :
    (s.loadByte a v).peek a = v := by
  by_cases hr : regionOf a = .prg
  · obtain ⟨-, -, hprg, -, -⟩ := hs
    simp [State.loadByte, State.peek, hr, Memory.read_write_same hprg]
  · have hcell : sameCell a a = true := by
      rw [sameCell_iff_regions]
      rcases holdsBytes_iff.1 ha with h | h | h
      · simp [h]
      · simp [h]
      · exact absurd h hr
    rw [loadByte_eq_poke hr, State.peek_poke s hs.1, if_pos hcell]

/-- A byte laid fewer than eight addresses further on leaves this address as it is: no store is
shorter than the PPU registers. -/
theorem peek_loadByte_add {d : Word} (hs : s.Inv) (hd : 0 < d.toNat) (hd' : d.toNat < 8) :
    (s.loadByte (a + d) v).peek a = s.peek a := by
  have hadd : (a + d).toNat = (a.toNat + d.toNat) % 65536 := BitVec.toNat_add ..
  by_cases hr : regionOf (a + d) = .prg
  · simp only [State.loadByte, hr]
    cases ha : regionOf a with
    | prg =>
      have hne : prgOffset s.params.prgBanks a ≠ prgOffset s.params.prgBanks (a + d) := by
        have hlow := regionOf_eq_prg_iff.1 ha
        have hhigh := regionOf_eq_prg_iff.1 hr
        have hoffset : (a + d).toNat - 0x8000 = a.toNat - 0x8000 + d.toNat := by omega
        obtain ⟨-, -, -, -, hbanks⟩ := hs
        rw [prgOffset, prgOffset, hoffset, bankSize]
        exact mod_ne_add_mod hd (by omega)
      simp only [State.peek, ha, Memory.read_write_other _ hne]
    | ram | ppu | apuIo | expansion | cartRam => simp only [State.peek, ha]
  · have hcell : ¬ SameCell (a + d) a := by
      simp only [SameCell, hadd]
      omega
    rw [loadByte_eq_poke hr, State.peek_poke s hs.1, if_neg (mt (sameCell_iff _ _).1 hcell)]

end

/-- The loader's place holds all three bytes: PC where it can, else 0x0200 in RAM. -/
theorem holdsBytes_loadPlace (pc : Word) :
    holdsBytes (loadPlace pc) = true ∧ holdsBytes (loadPlace pc + 1) = true ∧
      holdsBytes (loadPlace pc + 2) = true := by
  rw [loadPlace]
  split_ifs with h
  · simpa [and_assoc] using h
  · decide

section
variable (op l h : Byte) (s : State)

/-- Placing three bytes keeps the registers but PC, the flags and the parameters. -/
theorem placeInstr_registers :
    (placeInstr op l h s).a = s.a ∧ (placeInstr op l h s).x = s.x ∧
    (placeInstr op l h s).y = s.y ∧ (placeInstr op l h s).sp = s.sp ∧
    (placeInstr op l h s).p = s.p ∧ (placeInstr op l h s).params = s.params := by
  simp [placeInstr, withoutRequests]

@[simp] theorem placeInstr_pc : (placeInstr op l h s).pc = loadPlace s.pc := by
  simp [placeInstr]

theorem noRequest_placeInstr : NoRequest (placeInstr op l h s) :=
  ⟨by simp [placeInstr, withoutRequests], by simp [placeInstr, withoutRequests],
    .inl (by simp [placeInstr, withoutRequests])⟩

variable {s}

/-- The next fetch reads the three bytes placed: each is laid where it shows, and the ones after it
go to other cells. -/
theorem fetchedInstr_placeInstr (hs : s.Inv) :
    fetchedInstr (placeInstr op l h s) = decode op l h := by
  obtain ⟨hop, hl, hh⟩ := holdsBytes_loadPlace s.pc
  rw [fetchedInstr_eq, placeInstr_pc, placeInstr]
  generalize loadPlace s.pc = a at hop hl hh ⊢
  have hnext : a + 2 = a + 1 + 1 := by rw [BitVec.add_assoc]; rfl
  have h₀ : ((withoutRequests s).withPc a).Inv := hs
  have h₁ := h₀.loadByte (a := a) (v := op)
  have h₂ := h₁.loadByte (a := a + 1) (v := l)
  rw [peek_loadByte_self h₂ hh, peek_loadByte_add h₂ (by decide) (by decide),
    peek_loadByte_add h₁ (by decide) (by decide), peek_loadByte_self h₀ hop, hnext,
    peek_loadByte_add h₂ (by decide) (by decide), peek_loadByte_self h₁ hl]

theorem step_placeInstr (hs : s.Inv) :
    step (placeInstr op l h s) = exec (decode op l h) (fetchedState (placeInstr op l h s)) := by
  rw [step_of_noRequest (noRequest_placeInstr op l h s), fetchedInstr_placeInstr op l h hs,
    afterFetch_eq_fetchedState]

end

/-- Three bytes hold a whole instruction, and its opcode byte is the first. -/
theorem decode_of_decodeBytes {op l h : Byte} {i : Instr} {rest : List Byte}
    (hi : decodeBytes [op, l, h] = .ok (i, rest)) : decode op l h = i := by
  simp only [decodeBytes] at hi
  split at hi
  · cases hi
  · cases hi
    rfl

/-- Settles O8: the fetch after the load reads the word's bytes, and they decode to `i`. -/
theorem placedWordRunsNext : Obligations.PlacedWordRunsNext := by
  intro s nbits w i hs hw
  rw [decodeTableWord, tableBytes] at hw
  rw [State.withFetchWord]
  generalize byteOf (w % 2 ^ nbits) 0 = op, byteOf (w % 2 ^ nbits) 1 = l,
    byteOf (w % 2 ^ nbits) 2 = h at hw ⊢
  split at hw
  next j rest hj =>
    cases hw
    obtain ⟨ha, hx, hy, hsp, hp, hparams⟩ := placeInstr_registers op l h s
    rw [step_placeInstr op l h hs, decode_of_decodeBytes hj]
    exact ⟨fetchedState (placeInstr op l h s), rfl, ha, hx, hy, hsp, hp, hparams, rfl⟩
  next => cases hw

/-! ### Effective addresses in plain arithmetic -/

@[simp] theorem zext16_toNat (v : Byte) : (zext16 v).toNat = v.toNat := by
  have hv := v.isLt
  rw [zext16, BitVec.toNat_setWidth]
  omega

theorem wordOf_toNat (h l : Byte) : (wordOf h l).toNat = 256 * h.toNat + l.toNat := by
  have hh := h.isLt
  have hl := l.isLt
  rw [wordOf, BitVec.toNat_ofNat]
  omega

/-- Adding an index wraps modulo 65536 (R113, R114, R117). -/
theorem add_zext16_toNat (w : Word) (v : Byte) :
    (w + zext16 v).toNat = (w.toNat + v.toNat) % 65536 := by
  rw [BitVec.toNat_add, zext16_toNat]

/-- An address of page 0 from a byte known modulo 256 (R109 to R111, R116, R117). -/
theorem zext16_eq_ofNat {v : Byte} {n : Nat} (h : v.toNat = n % 256) :
    zext16 v = BitVec.ofNat 16 (n % 256) := by
  rw [← h, zext16, BitVec.ofNat_toNat]

theorem add_one_toNat_mod {v : Byte} {n : Nat} (h : v.toNat = n % 256) :
    (v + 1).toNat = (n + 1) % 256 := by
  bv_omega

/-- Two addresses have different high bytes when they lie in different pages (R16). -/
theorem pageDiffers_eq (v w : Word) : pageDiffers v w = decide (page w ≠ page v) := by
  have hv := v.isLt
  have hw := w.isLt
  rw [Bool.eq_iff_iff, decide_eq_true_iff, pageDiffers, bne_iff_ne, ne_eq, hi_eq_highByte,
    hi_eq_highByte, BitVec.toNat_eq, highByte, highByte, BitVec.toNat_ofNat, BitVec.toNat_ofNat,
    page, page]
  omega

/-- The page changes exactly when the index carries out of the low byte; at the end of memory it
changes to page 0 (R113, R114, R117). -/
theorem pageDiffers_add_zext16_iff (w : Word) (v : Byte) :
    pageDiffers w (w + zext16 v) = true ↔ 256 ≤ w.toNat % 256 + v.toNat := by
  have hw := w.isLt
  have hv := v.isLt
  rw [pageDiffers_eq, decide_eq_true_iff, page, page, add_zext16_toNat]
  omega

section
variable {p : Byte} {n : Nat} (h : p.toNat = n % 256)
include h

/-- A pointer's two bytes lie in page 0, the second one wrapping there (R116, R117). -/
theorem pointerAddrs_eq : pointerAddrs p =
    [BitVec.ofNat 16 (n % 256), BitVec.ofNat 16 ((n + 1) % 256)] := by
  rw [pointerAddrs, zext16_eq_ofNat h, zext16_eq_ofNat (add_one_toNat_mod h)]

theorem pointerAt_toNat (s : State) : (pointerAt p s).toNat =
    256 * (s.peek (BitVec.ofNat 16 ((n + 1) % 256))).toNat +
      (s.peek (BitVec.ofNat 16 (n % 256))).toNat := by
  rw [pointerAt, join_eq_wordOf, wordOf_toNat, zext16_eq_ofNat h,
    zext16_eq_ofNat (add_one_toNat_mod h)]

end

/-- Settles O30, mode by mode. -/
theorem effectiveAddressOfEveryMode : Obligations.EffectiveAddressOfEveryMode := by
  intro s a w ptr ptrReads
  have ha : a.toNat = a.toNat % 256 := (Nat.mod_eq_of_lt a.isLt).symm
  have hax : (a + s.x).toNat = (a.toNat + s.x.toNat) % 256 := BitVec.toNat_add ..
  have hay : (a + s.y).toNat = (a.toNat + s.y.toNat) % 256 := BitVec.toNat_add ..
  have hptr : (pointerAt a s).toNat = ptr a.toNat := pointerAt_toNat ha s
  refine ⟨⟨zext16_toNat a, rfl, rfl, rfl⟩, ⟨?_, rfl, rfl, rfl⟩, ⟨?_, rfl, rfl, rfl⟩,
    ⟨rfl, rfl, rfl, rfl⟩,
    ⟨add_zext16_toNat w s.x, pageDiffers_add_zext16_iff w s.x, rfl, rfl⟩,
    ⟨add_zext16_toNat w s.y, pageDiffers_add_zext16_iff w s.y, rfl, rfl⟩,
    ⟨pointerAt_toNat hax s, rfl, pointerAddrs_eq hax, rfl⟩, ⟨?_, ?_, pointerAddrs_eq ha, rfl⟩⟩
  · exact (zext16_toNat _).trans hax
  · exact (zext16_toNat _).trans hay
  · rw [← hptr]
    exact add_zext16_toNat (pointerAt a s) s.y
  · rw [← hptr]
    exact pageDiffers_add_zext16_iff (pointerAt a s) s.y

/-! ### The count of an instruction and its row of the table

The fields of a row evaluate, and so does `crosses` in a mode whose index cannot leave the page:
what the lemmas below ask of a row and a mode holds by `rfl`, row by row. -/

/-- The count a row gives an instruction (R120). -/
def rowCount (r : Row) (i : Instr) (s : State) : Cycles :=
  r.baseCycles + extra (paysPage r s.params.pagePenaltyScope && crossedBy i s) + branchExtraOf i s

section
variable {r : Row} {i : Instr} {m : MemMode} {s : State} {c : Cycles}

/-- With no page crossed a row gives the base cost and `BranchExtra`. -/
theorem eq_rowCount_of_not_crossed (hcrossed : crossedBy i s = false)
    (hc : c = r.baseCycles + branchExtraOf i s) : c = rowCount r i s := by
  simp [rowCount, hc, hcrossed, extra]

/-- With a memory mode a row gives the base cost and the page-cross cycle. -/
theorem rowCount_of_memMode (hm : memModeOf i = some m) (hbranch : branchExtraOf i s = 0) :
    rowCount r i s =
      r.baseCycles + extra (paysPage r s.params.pagePenaltyScope && crosses m s) := by
  simp [rowCount, crossedBy, hm, hbranch]

/-- A read-class row pays the page-cross cycle in its indexed modes, under both scopes (R121). -/
theorem readCost_eq_rowCount (hm : memModeOf i = some m) (hbranch : branchExtraOf i s = 0)
    (hbase : readBase m = r.baseCycles) (hreads : (r.pagePenalty && crosses m s) = crosses m s)
    (hall : (r.pagePenaltyIfAll && crosses m s) = crosses m s) :
    readCost (.mem m) s = rowCount r i s := by
  rw [rowCount_of_memMode hm hbranch]
  cases hscope : s.params.pagePenaltyScope <;> simp [readCost, paysPage, *]

/-- The row of a store or of a read-modify-write instruction pays it under `all_indexed` only
(R121). -/
theorem eq_rowCount_of_indexed (hm : memModeOf i = some m) (hbranch : branchExtraOf i s = 0)
    (hreads : r.pagePenalty = false) (hall : (r.pagePenaltyIfAll && crosses m s) = crosses m s)
    (hc : c = r.baseCycles + extra (paysIndexed s && crosses m s)) : c = rowCount r i s := by
  rw [rowCount_of_memMode hm hbranch, hc]
  cases hscope : s.params.pagePenaltyScope <;> simp [paysIndexed, paysPage, *]

end

/-- A branch costs its base of 2 and `BranchExtra` (R122). -/
theorem branchCost_eq {i : Instr} {s : State} {taken : Bool} {off : Byte}
    (h : branchOf s.p i = some (taken, off)) :
    branchCost taken (s.pc + 2) off = 2 + branchExtraOf i s := by
  simp only [branchExtraOf, h, branchCost, branchTarget, sext16, pageDiffers_eq]
  generalize s.pc + 2 = next
  cases taken with
  | false => rfl
  | true => by_cases hpage : page (next + off.signExtend 16) = page next <;> simp [hpage, extra]

/-- The row of an undefined byte (R85, R123). -/
theorem rowOf_of_undefined {op : Byte} (h : op ∈ undefinedBytes) :
    rowOf op = ⟨"UNDEF", .implied, 1, 2, false, false, .undefined⟩ := by
  fin_cases h <;> rfl

/-- The count of an instruction, class by class, is what the row of its opcode byte gives it (R84,
R120 to R123). -/
theorem instrCost_eq_rowCount {i : Instr} {op : Byte} (hop : i.opcode = some op) (s : State) :
    instrCost s i = rowCount (rowOf op) i s := by
  cases i with
  | lda o | ldx o | ldy o | adc o | sbc o | and o | ora o | eor o | cmp o | cpx o | cpy o =>
    cases o with
    | imm v => cases hop; exact eq_rowCount_of_not_crossed rfl rfl
    | mem m => cases m <;> cases hop <;> exact readCost_eq_rowCount rfl rfl rfl rfl rfl
  | bit m => cases m <;> cases hop <;> exact readCost_eq_rowCount rfl rfl rfl rfl rfl
  | sta m | stx m | sty m | inc m | dec m =>
    cases m <;> cases hop <;> exact eq_rowCount_of_indexed rfl rfl rfl rfl rfl
  | asl o | lsr o | rol o | ror o =>
    cases o with
    | acc => cases hop; exact eq_rowCount_of_not_crossed rfl rfl
    | mem m => cases m <;> cases hop <;> exact eq_rowCount_of_indexed rfl rfl rfl rfl rfl
  | bpl off | bmi off | bvc off | bvs off | bcc off | bcs off | bne off | beq off =>
    cases hop
    exact eq_rowCount_of_not_crossed rfl (branchCost_eq rfl)
  | undef b =>
    obtain ⟨hmem, rfl⟩ := (opcode_undef_eq_some_iff b op).1 hop
    rw [rowOf_of_undefined hmem]
    exact eq_rowCount_of_not_crossed rfl rfl
  | _ => cases hop; exact eq_rowCount_of_not_crossed rfl rfl

/-- Settles O5: the count is the cost of the instruction's class, and its row gives that cost. -/
theorem cycleCountFollowsTheTable : Obligations.CycleCountFollowsTheTable := by
  intro i op s t hop h
  rw [exec_cycles h]
  exact instrCost_eq_rowCount hop s

end Sys2Proof.Machine
end

section
/-!
PROOFS. The statements of spec/41_load_store_transfer.md: the loads (R140 to R142), the stores (R143
to R145) and the register transfers (R146 to R151), each with its encodings.

Every one of them ends in `retire`, which is `advanced`. What comes before it is an operand's access
by its law and a register write; of a load or transfer, Z and N as `withZN` gives them (R126).
-/

open Sys2Proof Sys2Proof.Machine Sys2Proof.Statement

namespace Sys2Proof.Machine

/-! ### Z and N, and the end of an instruction, in the terms of the statements -/

theorem setZN_eq_withZN (f : Flags) (r : Byte) : f.setZN r = withZN f r := by
  have hz : (r == 0x00#8) = decide (r.toNat = 0) := by
    rw [Bool.eq_iff_iff, beq_iff_eq, decide_eq_true_iff, BitVec.toNat_eq, BitVec.toNat_ofNat]
  have hn : bit r 7 = r.msb := (BitVec.msb_eq_getLsbD_last r).symm
  rw [Flags.setZN, withZN, hz, hn]

/-- `SetZN` writes the flags alone (R126). -/
theorem State.setZN_eq (s : State) (r : Byte) : s.setZN r = { s with p := withZN s.p r } := by
  rw [State.setZN, setZN_eq_withZN, State.withFlags]

/-- An instruction that transfers no control and has made its accesses already ends here (R104). -/
theorem retire_eq_advanced (n : Nat) (c : Cycles) (s : State) :
    retire n c s = .next (advanced s n c []) := by
  rw [advanced, List.append_nil]
  rfl

/-- The end of an instruction stores no byte. -/
theorem storesByte_advanced {s t : State} {a : Word} {v : Byte} (h : StoresByte s t a v) (n : Nat)
    (c : Cycles) (as : List Access) : StoresByte s (advanced t n c as) a v :=
  h

/-! ### Loads -/

/-- Settles O31: the operand's access answers the operand and leaves its reads in the trace; the rest
is the register write and `SetZN`. -/
theorem loadsSetRegisterAndZN : Obligations.LoadsSetRegisterAndZN := by
  unfold Obligations.LoadsSetRegisterAndZN AccEncodings
  simp only [← join_eq_wordOf]
  refine ⟨fun l h => ⟨rfl, rfl, rfl, rfl, rfl, rfl, rfl, rfl⟩,
    fun l h => ⟨rfl, rfl, rfl, rfl, rfl, rfl, rfl, rfl, rfl, rfl⟩, fun o s => ?_⟩
  simp only [exec, execLda, execLdx, execLdy, readOperand_eq, State.setZN_eq]
  exact ⟨rfl, rfl, rfl⟩

/-! ### Stores -/

/-- A store's access changes RAM, the PPU registers and the trace alone (R52, R119). -/
theorem writeMem_frame (m : MemMode) (v : Byte) (s : State) :
    writeMem m v s = { s with
      ram := (writeMem m v s).ram, ppu := (writeMem m v s).ppu
      trace := s.trace ++ (readsOf (pointerReads m s) s ++ [.write (ea m s) v]) } := by
  rw [writeMem_eq, ← List.append_assoc]
  exact memWrite_frame _ _ _

/-- The pointer reads change no byte, so a store's access is its one write (R52, R119). -/
theorem storesByte_writeMem {s : State} (hs : s.Inv) (m : MemMode) (v : Byte) :
    StoresByte s (writeMem m v s) (ea m s) v := by
  have hreads : { s with trace := s.trace ++ readsOf (pointerReads m s) s }.Inv := hs
  rw [writeMem_eq]
  exact storesByte_memWrite hreads (ea m s) v

/-- An instruction that makes a store's access and retires (R119). -/
theorem storeResult_of_exec {i : Instr} {m : MemMode} {v : State → Byte}
    (hi : ∀ s, exec i s = retire m.size (writeCost m s) (writeMem m (v s) s)) :
    StoreResult i m v := by
  intro s hs
  have hexec := (hi s).trans (retire_eq_advanced _ _ _)
  refine ⟨_, hexec, ?_, storesByte_advanced (storesByte_writeMem hs m (v s)) _ _ _⟩
  rw [writeMem_frame]
  simp only [advanced, List.append_nil]

/-- Settles O32: STA, STX and STY are one store's access each, of A, X and Y. -/
theorem storesWriteOneByteAtEa : Obligations.StoresWriteOneByteAtEa := by
  unfold Obligations.StoresWriteOneByteAtEa
  simp only [← join_eq_wordOf]
  refine ⟨fun l h => ⟨rfl, rfl, rfl, rfl, rfl, rfl, rfl, rfl, rfl, rfl, rfl, rfl, rfl⟩, fun m => ?_⟩
  exact ⟨storeResult_of_exec fun _ => rfl, storeResult_of_exec fun _ => rfl,
    storeResult_of_exec fun _ => rfl⟩

/-! ### Transfers -/

/-- Settles O33: each transfer is one register write, with `SetZN` but for TXS. -/
theorem transfersCopyOneRegister : Obligations.TransfersCopyOneRegister := by
  refine ⟨fun _ _ => rfl, fun _ _ => rfl, fun _ _ => rfl, fun _ _ => rfl, fun _ _ => rfl,
    fun _ _ => rfl, fun s => ?_⟩
  simp only [exec, execTax, execTay, execTxa, execTya, execTsx, execTxs, State.setZN_eq,
    retire_eq_advanced]
  exact ⟨rfl, rfl, rfl, rfl, rfl, rfl⟩

end Sys2Proof.Machine
end

section
/-!
PROOFS. The statements of spec/42_arith_logic_compare.md: ADC and SBC (R160 to R162, R176), AND, ORA
and EOR (R163 to R165), BIT (R166), the compares (R167 to R169), and the increments and decrements
(R170 to R175), each with its encodings.

The arithmetic of ADC comes first, on bytes alone: result, carry and overflow in plain numbers; SBC
is the same of the complement. An instruction is then its operand's access by its law, with the
register and the flags it writes. `readsIntoFlags_of_exec` and `rmwResult_of_exec` say so once for
the forms that write only flags and for the read-modify-write forms.
-/

open Sys2Proof Sys2Proof.Machine Sys2Proof.Statement

namespace Sys2Proof.Machine

/-! ### The bits of a byte -/

theorem bit_seven_eq_msb (v : Byte) : bit v 7 = v.msb :=
  (BitVec.msb_eq_getLsbD_last v).symm

theorem bit_eq_decide (v : Byte) (i : Nat) : bit v i = decide (v.toNat / 2 ^ i % 2 = 1) :=
  Nat.testBit_eq_decide_div_mod_eq

/-- Masking with 0x80 tests the sign bit (R161). -/
theorem and_0x80_ne_zero (v : Byte) : (v &&& 0x80#8 != 0#8) = v.msb := by
  have hmask : 0x80#8 = BitVec.twoPow 8 7 := rfl
  rw [hmask, BitVec.and_twoPow, BitVec.msb_eq_getLsbD_last]
  cases v.getLsbD 7 <;> rfl

/-! ### ADC on bytes -/

@[simp] theorem carryIn_toNat (c : Bool) : (carryIn c).toNat = c.toNat := by
  cases c <;> rfl

section
variable (a m : Byte) (c : Bool)

/-- The wide sum does not wrap: two bytes and a carry make at most 511 (R161). -/
theorem wideSum_toNat : (wideSum a m c).toNat = a.toNat + m.toNat + c.toNat := by
  have ha := a.isLt
  have hm := m.isLt
  have hc := c.toNat_le
  simp only [wideSum, BitVec.toNat_add, zext16_toNat, carryIn_toNat]
  omega

theorem addResult_eq_ofNat :
    addResult a m c = BitVec.ofNat 8 (a.toNat + m.toNat + c.toNat) := by
  apply BitVec.eq_of_toNat_eq
  simp [addResult, lo_eq_lowByte, lowByte, wideSum_toNat]

theorem addCarry_eq_decide : addCarry a m c = decide (255 < a.toNat + m.toNat + c.toNat) := by
  rw [addCarry, BitVec.ult, wideSum_toNat]
  rfl

theorem addOverflow_eq_msb :
    addOverflow a m c = (a.msb == m.msb && a.msb != (addResult a m c).msb) := by
  rw [addOverflow, and_0x80_ne_zero, BitVec.msb_and, BitVec.msb_not, BitVec.msb_xor, BitVec.msb_xor]
  cases a.msb <;> cases m.msb <;> rfl

/-- The sign rule of V says that the signed sum leaves the range of a byte (R160, R161). -/
theorem addOverflow_iff : addOverflow a m c = true ↔
    a.toInt + m.toInt + (c.toNat : Int) < -128 ∨ 127 < a.toInt + m.toInt + (c.toNat : Int) := by
  have ha := a.isLt
  have hm := m.isLt
  have hc := c.toNat_le
  rw [addOverflow_eq_msb, addResult_eq_ofNat]
  simp only [Bool.and_eq_true, beq_iff_eq, bne_iff_ne, ne_eq, BitVec.msb_eq_decide,
    decide_eq_decide, BitVec.toInt_eq_toNat_cond, BitVec.toNat_ofNat]
  omega

/-! ### SBC on bytes: ADC of the complement -/

theorem toInt_not_byte : (~~~m).toInt = -m.toInt - 1 := by
  have hm := m.isLt
  simp only [BitVec.toInt_eq_toNat_cond, BitVec.toNat_not]
  omega

/-- `A + (~M) + C` is `A - M - (1 - C)` modulo 256 (R162). -/
theorem addResult_not : addResult a (~~~m) c =
    BitVec.ofInt 8 ((a.toNat : Int) - m.toNat - (1 - c.toNat : Nat)) := by
  have hm := m.isLt
  have hc := c.toNat_le
  rw [addResult_eq_ofNat, BitVec.toNat_not]
  apply BitVec.eq_of_toNat_eq
  simp only [BitVec.toNat_ofNat, BitVec.toNat_ofInt]
  omega

/-- The carry of that sum is the absence of a borrow (R162). -/
theorem addCarry_not :
    addCarry a (~~~m) c = decide (m.toNat + (1 - c.toNat) ≤ a.toNat) := by
  have hm := m.isLt
  have hc := c.toNat_le
  rw [addCarry_eq_decide, BitVec.toNat_not, decide_eq_decide]
  omega

/-- The overflow of that sum is that of the signed difference (R162). -/
theorem addOverflow_not : addOverflow a (~~~m) c =
    decide (a.toInt - m.toInt - ((1 - c.toNat : Nat) : Int) < -128 ∨
      127 < a.toInt - m.toInt - ((1 - c.toNat : Nat) : Int)) := by
  have hc := c.toNat_le
  rw [Bool.eq_iff_iff, addOverflow_iff, decide_eq_true_iff, toInt_not_byte]
  omega

end

/-! ### ADC and SBC -/

theorem Flags.afterAdd_eq_withZN (f : Flags) (a m : Byte) : f.afterAdd a m =
    withZN { f with c := addCarry a m f.c, v := addOverflow a m f.c } (addResult a m f.c) :=
  setZN_eq_withZN _ _

/-- Adding into A after an operand's reads, and the end of the instruction (R104, R161). -/
theorem retire_addInto (n : Nat) (c : Cycles) (m : Byte) (as : List Access) (s : State) :
    retire n c (addInto m { s with trace := s.trace ++ as }) = .next { advanced s n c as with
      a := addResult s.a m s.p.c
      p := withZN { s.p with c := addCarry s.a m s.p.c, v := addOverflow s.a m s.p.c }
        (addResult s.a m s.p.c) } := by
  rw [← Flags.afterAdd_eq_withZN]
  rfl

/-- Settles O34: the sum on bytes, added into A after the operand's reads. -/
theorem adcAddsWithCarry : Obligations.AdcAddsWithCarry := by
  unfold Obligations.AdcAddsWithCarry AccEncodings
  simp only [← join_eq_wordOf, ← addResult_eq_ofNat, ← addCarry_eq_decide, ← addOverflow_eq_msb]
  refine ⟨fun l h => ⟨rfl, rfl, rfl, rfl, rfl, rfl, rfl, rfl⟩,
    fun o s => ⟨?_, addOverflow_iff s.a (operandValue o s) s.p.c⟩⟩
  simp only [exec, execAdc, readOperand_eq, retire_addInto]

/-- Settles O35: the sum of the complement is the difference, added into A in the same way. -/
theorem sbcSubtractsWithBorrow : Obligations.SbcSubtractsWithBorrow := by
  unfold Obligations.SbcSubtractsWithBorrow AccEncodings
  simp only [← join_eq_wordOf, ← addResult_not, ← addCarry_not, ← addOverflow_not]
  refine ⟨fun l h => ⟨rfl, rfl, rfl, rfl, rfl, rfl, rfl, rfl⟩, fun o s => ?_⟩
  simp only [exec, execSbc, readOperand_eq, retire_addInto]

/-! ### AND, ORA and EOR -/

/-- Settles O36: the operand's access, the write of A and `SetZN`. -/
theorem logicSetsAccumulatorAndZN : Obligations.LogicSetsAccumulatorAndZN := by
  unfold Obligations.LogicSetsAccumulatorAndZN AccEncodings
  simp only [← join_eq_wordOf]
  refine ⟨fun l h => ⟨rfl, rfl, rfl, rfl, rfl, rfl, rfl, rfl⟩,
    fun l h => ⟨rfl, rfl, rfl, rfl, rfl, rfl, rfl, rfl⟩,
    fun l h => ⟨rfl, rfl, rfl, rfl, rfl, rfl, rfl, rfl⟩, fun o s => ?_⟩
  simp only [exec, execAnd, execOra, execEor, readOperand_eq, State.setZN_eq]
  exact ⟨rfl, rfl, rfl⟩

/-! ### BIT and the compares -/

/-- An instruction that makes an operand's access, writes the flags and retires (R119). -/
theorem readsIntoFlags_of_exec {i : Instr} {o : ReadMode} {f : State → Byte → Flags}
    (hi : ∀ s, exec i s = retire o.size (readCost o s)
      ((readOperand o s).2.withFlags (f s (readOperand o s).1))) :
    ReadsIntoFlags i o fun s => f s (operandValue o s) := by
  intro s
  rw [hi, readOperand_eq]
  rfl

theorem Flags.afterBit_eq (f : Flags) (a m : Byte) : f.afterBit a m =
    { f with z := decide (a &&& m = 0), n := decide (128 ≤ m.toNat)
             v := decide (m.toNat / 64 % 2 = 1) } := by
  rw [Flags.afterBit, bit_seven_eq_msb, BitVec.msb_eq_decide, bit_eq_decide]
  rfl

/-- Settles O37: one operand read, then the flags of BIT. -/
theorem bitTestsTheOperand : Obligations.BitTestsTheOperand := by
  unfold Obligations.BitTestsTheOperand
  simp only [← join_eq_wordOf, ← Flags.afterBit_eq]
  exact ⟨fun l h => ⟨rfl, rfl⟩, fun m => readsIntoFlags_of_exec fun _ => rfl⟩

theorem Flags.afterCompare_eq_compareFlags (f : Flags) (r m : Byte) :
    f.afterCompare r m = compareFlags f r m := by
  have hdiff : r - m = BitVec.ofNat 8 (256 + r.toNat - m.toNat) := by bv_omega
  rw [Flags.afterCompare, bit_seven_eq_msb, hdiff]
  rfl

/-- Settles O38: one operand access each, then the flags of a compare with A, X and Y. -/
theorem comparesSetCarryZeroNegative : Obligations.ComparesSetCarryZeroNegative := by
  unfold Obligations.ComparesSetCarryZeroNegative AccEncodings
  simp only [← join_eq_wordOf, ← Flags.afterCompare_eq_compareFlags]
  refine ⟨fun l h => ⟨rfl, rfl, rfl, rfl, rfl, rfl, rfl, rfl⟩,
    fun l h => ⟨rfl, rfl, rfl, rfl, rfl, rfl⟩, fun o => ?_⟩
  exact ⟨readsIntoFlags_of_exec fun _ => rfl, readsIntoFlags_of_exec fun _ => rfl,
    readsIntoFlags_of_exec fun _ => rfl⟩

/-! ### Increments and decrements -/

theorem add_one_eq_ofNat (v : Byte) : v + 1 = BitVec.ofNat 8 (v.toNat + 1) := by
  bv_omega

/-- One less modulo 256 is 255 more (R171, R174, R175). -/
theorem sub_one_eq_ofNat (v : Byte) : v - 1 = BitVec.ofNat 8 (v.toNat + 255) := by
  bv_omega

/-- A read-modify-write access answers the byte it read (R119). -/
@[simp] theorem modifyMem_fst (m : MemMode) (f : Byte → Byte) (s : State) :
    (modifyMem m f s).1 = s.peek (ea m s) := by
  rw [modifyMem_eq]

/-- A read-modify-write access changes RAM, the PPU registers and the trace alone (R52, R119). -/
theorem modifyMem_frame (m : MemMode) (f : Byte → Byte) (s : State) :
    (modifyMem m f s).2 = { s with
      ram := (modifyMem m f s).2.ram, ppu := (modifyMem m f s).2.ppu
      trace := s.trace ++ (memReads m s ++ [.write (ea m s) (f (s.peek (ea m s)))]) } := by
  rw [modifyMem_eq, ← List.append_assoc]
  exact memWrite_frame _ _ _

/-- The reads change no byte, so a read-modify-write access stores by its one write (R52, R119). -/
theorem storesByte_modifyMem {s : State} (hs : s.Inv) (m : MemMode) (f : Byte → Byte) :
    StoresByte s (modifyMem m f s).2 (ea m s) (f (s.peek (ea m s))) := by
  have hreads : { s with trace := s.trace ++ memReads m s }.Inv := hs
  rw [modifyMem_eq]
  exact storesByte_memWrite hreads _ _

/-- Writing the flags stores no byte. -/
theorem storesByte_withFlags {s t : State} {a : Word} {v : Byte} (h : StoresByte s t a v)
    (f : Flags) : StoresByte s (t.withFlags f) a v :=
  h

/-- An instruction that makes a read-modify-write access, writes the flags and retires (R119). -/
theorem rmwResult_of_exec {i : Instr} {m : MemMode} {r : State → Byte → Byte}
    {f : State → Byte → Flags}
    (hi : ∀ s, exec i s = retire m.size (rmwCost m s)
      ((modifyMem m (r s) s).2.withFlags (f s (modifyMem m (r s) s).1))) :
    RmwResult i m r f := by
  intro s hs
  have hexec := (hi s).trans (retire_eq_advanced _ _ _)
  rw [modifyMem_fst] at hexec
  have hstores := storesByte_withFlags (storesByte_modifyMem hs m (r s)) (f s (s.peek (ea m s)))
  refine ⟨_, hexec, ?_, storesByte_advanced hstores m.size (rmwCost m s) []⟩
  rw [modifyMem_frame]
  simp only [advanced, State.withFlags, List.append_nil]

/-- `SetZN` after a read-modify-write access starts from the flags before it (R170, R171). -/
theorem setZN_modifyMem (m : MemMode) (f : Byte → Byte) (s : State) (v : Byte) :
    (modifyMem m f s).2.setZN v = (modifyMem m f s).2.withFlags (withZN s.p v) := by
  rw [State.setZN, setZN_eq_withZN, modifyMem_frame]

/-- Settles O39: INC and DEC are one read-modify-write access each, then `SetZN`. -/
theorem incDecRewriteOneByte : Obligations.IncDecRewriteOneByte := by
  unfold Obligations.IncDecRewriteOneByte RmwEncodings
  simp only [← join_eq_wordOf, ← add_one_eq_ofNat, ← sub_one_eq_ofNat]
  refine ⟨fun l h => ⟨rfl, rfl, rfl, rfl⟩, fun l h => ⟨rfl, rfl, rfl, rfl⟩, fun m =>
    ⟨rmwResult_of_exec fun s => ?_, rmwResult_of_exec fun s => ?_⟩⟩
  · rw [exec, execInc, setZN_modifyMem]
  · rw [exec, execDec, setZN_modifyMem]

/-- Settles O40: each step is one register write and `SetZN`. -/
theorem indexStepsWrapAndSetZN : Obligations.IndexStepsWrapAndSetZN := by
  unfold Obligations.IndexStepsWrapAndSetZN
  simp only [← add_one_eq_ofNat, ← sub_one_eq_ofNat]
  refine ⟨fun _ _ => rfl, fun _ _ => rfl, fun _ _ => rfl, fun _ _ => rfl, fun s => ?_⟩
  simp only [exec, execInx, execIny, execDex, execDey, State.setZN_eq, retire_eq_advanced]
  exact ⟨rfl, rfl, rfl, rfl⟩

end Sys2Proof.Machine
end

section
/-!
PROOFS. The statements of spec/43_shift_rotate.md: the shifts ASL and LSR (R191, R192) and the
rotates ROL and ROR (R193, R194), on A and on memory (R190), each with its encodings.

The bit shifted out and the result come first, on bytes alone, in plain numbers; a rotate is a shift
with the old C placed at the bit the shift has cleared. The four instructions then share one form,
`shiftResults_of_exec`: on A a register write, on memory the read-modify-write form.
-/

open Sys2Proof Sys2Proof.Machine Sys2Proof.Statement

namespace Sys2Proof.Machine

/-! ### The bit shifted out -/

theorem bit_seven_eq_decide (v : Byte) : bit v 7 = decide (128 ≤ v.toNat) := by
  rw [bit_seven_eq_msb, BitVec.msb_eq_decide]

theorem bit_zero_eq_decide (v : Byte) : bit v 0 = decide (v.toNat % 2 = 1) := by
  rw [bit_eq_decide, pow_zero, Nat.div_one]

/-! ### The results on bytes -/

theorem aslResult_eq_ofNat (v : Byte) : aslResult v = BitVec.ofNat 8 (2 * v.toNat) := by
  apply BitVec.eq_of_toNat_eq
  rw [aslResult, BitVec.toNat_shiftLeft, BitVec.toNat_ofNat, Nat.shiftLeft_eq, pow_one, mul_comm]

theorem lsrResult_eq_ofNat (v : Byte) : lsrResult v = BitVec.ofNat 8 (v.toNat / 2) := by
  have hv := v.isLt
  apply BitVec.eq_of_toNat_eq
  rw [lsrResult, BitVec.toNat_ushiftRight, BitVec.toNat_ofNat, Nat.shiftRight_eq_div_pow]
  omega

/-- A flag placed at a clear bit is added there (R11, R193, R194). -/
theorem or_flagAt {v : Byte} {k : Nat} (hv : bit v k = false) (c : Bool) :
    v ||| flagAt c k = v + BitVec.ofNat 8 (2 ^ k * c.toNat) := by
  cases c with
  | false => simp [flagAt]
  | true =>
    have hone : BitVec.ofNat 8 (2 ^ k * true.toNat) = BitVec.twoPow 8 k := by
      apply BitVec.eq_of_toNat_eq
      rw [Bool.toNat_true, mul_one, BitVec.toNat_ofNat, BitVec.toNat_twoPow]
    have hdisjoint : v &&& BitVec.twoPow 8 k = 0#8 := by
      rw [BitVec.and_twoPow, ← bit, hv]
      rfl
    rw [hone, BitVec.add_eq_or_of_and_eq_zero _ _ hdisjoint]
    rfl

/-- ROL is ASL with C in bit 0, which the shift has cleared (R193). -/
theorem rolResult_eq_ofNat (v : Byte) (c : Bool) :
    rolResult v c = BitVec.ofNat 8 (2 * v.toNat + c.toNat) := by
  have hclear : bit (aslResult v) 0 = false := by simp [bit, aslResult]
  calc rolResult v c
      = aslResult v + BitVec.ofNat 8 (2 ^ 0 * c.toNat) := or_flagAt hclear c
    _ = BitVec.ofNat 8 (2 * v.toNat + c.toNat) := by
        rw [aslResult_eq_ofNat, pow_zero, one_mul, BitVec.ofNat_add]

/-- ROR is LSR with C in bit 7, which the shift has cleared (R194). -/
theorem rorResult_eq_ofNat (v : Byte) (c : Bool) :
    rorResult v c = BitVec.ofNat 8 (128 * c.toNat + v.toNat / 2) := by
  have hclear : bit (lsrResult v) 7 = false := by simp [bit, lsrResult]
  calc rorResult v c
      = lsrResult v ||| flagAt c 7 := BitVec.or_comm _ _
    _ = lsrResult v + BitVec.ofNat 8 (128 * c.toNat) := or_flagAt hclear c
    _ = BitVec.ofNat 8 (128 * c.toNat + v.toNat / 2) := by
        rw [lsrResult_eq_ofNat, add_comm (128 * _), BitVec.ofNat_add]

/-! ### The instructions -/

theorem Flags.afterShift_eq_shiftFlags (s : State) (out : Bool) (r : Byte) :
    s.p.afterShift out r = shiftFlags s out r :=
  setZN_eq_withZN _ _

/-- An instruction that makes a shift's access with result `r`, sends the bit `out` to C and
retires, in its accumulator form and in its memory forms (R190). -/
theorem shiftResults_of_exec {i : ShiftMode → Instr} (r : State → Byte → Byte) (out : Byte → Bool)
    (hi : ∀ o s, exec (i o) s =
      let w := modifyShift o (r s) s
      retire o.size (shiftCost o s) (w.2.withFlags (s.p.afterShift (out w.1) (r s w.1)))) :
    let f := fun s v => shiftFlags s (out v) (r s v)
    AccShiftResult (i .acc) r f ∧ ∀ m, RmwResult (i (.mem m)) m r f := by
  simp only [Flags.afterShift_eq_shiftFlags] at hi
  exact ⟨fun s => (hi .acc s).trans (retire_eq_advanced _ _ _),
    fun m => rmwResult_of_exec (hi (.mem m))⟩

/-- Settles O41: ASL and LSR are one shift's access each, then C from the bit shifted out and
`SetZN`. -/
theorem shiftsMoveOneBitIntoCarry : Obligations.ShiftsMoveOneBitIntoCarry := by
  unfold Obligations.ShiftsMoveOneBitIntoCarry RmwEncodings
  simp only [← join_eq_wordOf, ← aslResult_eq_ofNat, ← lsrResult_eq_ofNat, ← bit_seven_eq_decide,
    ← bit_zero_eq_decide]
  obtain ⟨hasl, haslMem⟩ :=
    shiftResults_of_exec (i := .asl) (fun _ => aslResult) (bit · 7) fun _ _ => rfl
  obtain ⟨hlsr, hlsrMem⟩ :=
    shiftResults_of_exec (i := .lsr) (fun _ => lsrResult) (bit · 0) fun _ _ => rfl
  exact ⟨fun _ _ => rfl, fun l h => ⟨rfl, rfl, rfl, rfl⟩, fun _ _ => rfl,
    fun l h => ⟨rfl, rfl, rfl, rfl⟩, hasl, hlsr, fun m => ⟨haslMem m, hlsrMem m⟩⟩

/-- Settles O42: ROL and ROR are one shift's access each, whose result takes the old C in. -/
theorem rotatesPassThroughCarry : Obligations.RotatesPassThroughCarry := by
  unfold Obligations.RotatesPassThroughCarry RmwEncodings
  simp only [← join_eq_wordOf, ← rolResult_eq_ofNat, ← rorResult_eq_ofNat, ← bit_seven_eq_decide,
    ← bit_zero_eq_decide]
  obtain ⟨hrol, hrolMem⟩ :=
    shiftResults_of_exec (i := .rol) (fun s v => rolResult v s.p.c) (bit · 7) fun _ _ => rfl
  obtain ⟨hror, hrorMem⟩ :=
    shiftResults_of_exec (i := .ror) (fun s v => rorResult v s.p.c) (bit · 0) fun _ _ => rfl
  exact ⟨fun _ _ => rfl, fun l h => ⟨rfl, rfl, rfl, rfl⟩, fun _ _ => rfl,
    fun l h => ⟨rfl, rfl, rfl, rfl⟩, hrol, hror, fun m => ⟨hrolMem m, hrorMem m⟩⟩

end Sys2Proof.Machine
end

section
/-!
PROOFS. The statements of spec/44_control_flow.md: the branches (R200 to R208), the jumps (R209,
R210), JSR (R211), RTS (R212) and their round trip (R213), each instruction with its encodings.

Every one of them ends in `transfer`, which writes PC and the count alone. What comes before it is
nothing, the reads of an indirect target, or a 16-bit push or pop by its law. The round trip uses
what JSR leaves on the stack, `afterPushes_of_exec_jsr`, and what RTS pops from it.
-/

open Sys2Proof Sys2Proof.Machine Sys2Proof.Statement

namespace Sys2Proof.Machine

/-! ### The end of an instruction that writes PC -/

/-- Such an instruction writes PC and the count alone (R104). -/
theorem transfer_eq (w : Word) (c : Cycles) (s : State) :
    transfer w c s = .next { s with pc := w, cycles := c } := rfl

/-! ### Branches -/

/-- A branch's target is `next` plus the signed offset, modulo 65536 (R118). -/
theorem branchTarget_eq_ofInt (pc : Word) (off : Byte) :
    branchTarget (pc + 2) off = BitVec.ofInt 16 ((pc.toNat : Int) + 2 + off.toInt) := by
  have hoff : sext16 off = BitVec.ofInt 16 off.toInt := rfl
  have hpc : pc = BitVec.ofInt 16 pc.toNat := by simp
  rw [BitVec.ofInt_add, BitVec.ofInt_add, ← hpc, ← hoff]
  rfl

/-- A branch costs 2, 3 taken within the page of `next`, 4 taken to another one (R122, R200). -/
theorem branchCost_eq_ite (taken : Bool) (next : Word) (off : Byte) :
    branchCost taken next off =
      if taken then (if page (branchTarget next off) = page next then 3 else 4) else 2 := by
  rw [branchCost, pageDiffers_eq]
  cases taken with
  | false => rfl
  | true => by_cases hpage : page (branchTarget next off) = page next <;> simp [hpage, extra]

/-- An instruction that takes the common form of a branch on the condition `cond` (R200). -/
theorem branchResult_of_exec {f : Byte → Instr} {op : Byte} {cond : Flags → Bool}
    (hop : ∀ l h : Byte, decode op l h = f l)
    (hf : ∀ off s, exec (f off) s = branchIf (cond s.p) off s) : BranchResult f op cond := by
  refine ⟨hop, fun off s => ?_⟩
  rw [hf, branchIf, transfer_eq, branchCost_eq_ite, branchTarget_eq_ofInt]

/-- Settles O43: each branch is the common form on its own flag. -/
theorem branchesFollowTheirFlag : Obligations.BranchesFollowTheirFlag := by
  refine ⟨?_, ?_, ?_, ?_, ?_, ?_, ?_, ?_⟩ <;>
    exact branchResult_of_exec (fun _ _ => rfl) fun _ _ => rfl

/-! ### Jumps -/

/-- Where the high byte of an indirect target is read, in plain arithmetic: with the page wrap in
the pointer's own page, without it at the next address (R115). -/
theorem indirectHigh_eq_ofNat (wrap : Bool) (w : Word) :
    indirectHigh wrap w =
      if wrap then BitVec.ofNat 16 (256 * (w.toNat / 256) + (w.toNat + 1) % 256)
      else BitVec.ofNat 16 (w.toNat + 1) := by
  cases wrap with
  | false => exact add_ofNat_eq_ofNat_toNat_add w 1
  | true =>
    have hhigh : (highByte w).toNat = w.toNat / 256 := by
      have hw := w.isLt
      rw [highByte, BitVec.toNat_ofNat]
      omega
    have hlow : (lowByte w + 1).toNat = (w.toNat + 1) % 256 :=
      add_one_toNat_mod (by rw [lowByte, BitVec.toNat_ofNat, Nat.mod_mod])
    rw [indirectHigh, if_pos rfl, if_pos rfl, join_eq_wordOf, hi_eq_highByte, lo_eq_lowByte, wordOf,
      hhigh, hlow]

/-- The read of the low byte changes no byte, so the high byte is that of `s` (R115, R210). -/
theorem exec_jmpInd (w : Word) (s : State) :
    let second := indirectHigh s.params.jmpIndPageWrap w
    exec (.jmpInd w) s = .next { s with
      pc := wordOf (s.peek second) (s.peek w), cycles := 5
      trace := s.trace ++ [readAt s w, readAt s second] } := by
  simp only [exec, execJmpInd, transfer_eq, memRead_fst, memRead_snd, State.logged_peek,
    join_eq_wordOf]
  simp [State.logged, readAt]

/-- Settles O44: a jump is the transfer to its target, after the two reads of an indirect one. -/
theorem jumpsSetPcToTheirTarget : Obligations.JumpsSetPcToTheirTarget := by
  refine ⟨fun l h => ?_, fun w s => ⟨rfl, ?_⟩⟩
  · rw [← join_eq_wordOf]
    exact ⟨rfl, rfl⟩
  · rw [exec_jmpInd, indirectHigh_eq_ofNat]

/-! ### Subroutines -/

/-- A 16-bit push changes RAM, SP and the trace alone (R64). -/
theorem push16_frame (w : Word) (s : State) :
    push16 w s = { s with
      ram := (push16 w s).ram, sp := s.sp - 2
      trace := s.trace ++ pushWrites s.sp [highByte w, lowByte w] } := by
  have hsp : s.sp - 1 - 1 = s.sp - 2 := by bv_omega
  rw [← push16_trace, ← hsp, push16]
  simp only [push_eq]

theorem exec_jsr (w : Word) (s : State) :
    exec (.jsr w) s = .next { push16 (s.pc + 2) s with pc := w, cycles := 6 } := rfl

theorem exec_rts (s : State) :
    exec .rts s = .next { s with
      pc := wordOf (popped s 2) (popped s 1) + 1, sp := s.sp + 2, cycles := 6
      trace := s.trace ++ [popRead s 1, popRead s 2] } := by
  rw [exec, execRts, pop16_eq_popped, transfer_eq]

/-- JSR leaves the address of its last byte on the stack: the writes of PC and the count change no
byte (R211). -/
theorem afterPushes_of_exec_jsr {w : Word} {s t : State} (hs : s.Inv)
    (h : exec (.jsr w) s = .next t) :
    AfterPushes s t [highByte (s.pc + 2), lowByte (s.pc + 2)] := by
  cases h
  exact afterPushes_push16 hs (s.pc + 2)

theorem exec_jsr_frame {w : Word} {s t : State} (h : exec (.jsr w) s = .next t) :
    t = { s with
      ram := t.ram, sp := s.sp - 2, pc := w, cycles := 6
      trace := s.trace ++ pushWrites s.sp [highByte (s.pc + 2), lowByte (s.pc + 2)] } := by
  cases h
  exact congrArg (fun t : State => { t with pc := w, cycles := 6 }) (push16_frame (s.pc + 2) s)

/-- Settles O45: the push of the last byte's address, then the transfer to the operand. -/
theorem jsrPushesItsLastByteAddress : Obligations.JsrPushesItsLastByteAddress := by
  refine ⟨fun l h => ?_, fun w s hs => ?_⟩
  · rw [← join_eq_wordOf]
    rfl
  · exact ⟨_, exec_jsr w s, afterPushes_of_exec_jsr hs (exec_jsr w s),
      exec_jsr_frame (exec_jsr w s)⟩

/-- Settles O46: the two pops, then the transfer to one past the popped word. -/
theorem rtsReturnsPastThePoppedAddress : Obligations.RtsReturnsPastThePoppedAddress :=
  ⟨fun _ _ => rfl, exec_rts⟩

/-- The word popped after JSR is the address of its last byte (R211, R212). -/
theorem popped_of_exec_jsr {w : Word} {s t : State} (hs : s.Inv) (h : exec (.jsr w) s = .next t) :
    wordOf (popped t 2) (popped t 1) = s.pc + 2 := by
  have hpushed := afterPushes_of_exec_jsr hs h
  have hhigh : popped t 2 = highByte (s.pc + 2) :=
    popped_of_afterPushes hpushed (k := 0) (by decide) rfl
  have hlow : popped t 1 = lowByte (s.pc + 2) :=
    popped_of_afterPushes hpushed (k := 1) (by decide) rfl
  rw [hhigh, hlow, wordOf_highByte_lowByte]

/-- Settles O47: RTS pops the word JSR pushed, and adds 1 to it. -/
theorem jsrThenRtsResumes : Obligations.JsrThenRtsResumes := by
  intro w s t u hs ht hu
  cases (exec_rts t).symm.trans hu
  have hpc : wordOf (popped t 2) (popped t 1) + 1 = s.pc + 3 := by
    rw [popped_of_exec_jsr hs ht, BitVec.add_assoc]
    rfl
  have hsp : t.sp + 2 = s.sp := by
    rw [exec_jsr_frame ht]
    exact BitVec.sub_add_cancel s.sp 2
  refine ⟨hpc, hsp, ?_⟩
  rw [exec_jsr_frame ht]
  exact ⟨rfl, rfl, rfl, rfl⟩

end Sys2Proof.Machine
end

section
/-!
PROOFS. The statements of spec/45_stack_flag_system.md: PHA, PHP, PLA and PLP (R220 to R223), the
flag instructions (R224 to R230), BRK and RTI (R231, R232), NOP and the undefined opcodes (R233,
R236), each with its encodings.

The stack instructions are one push or pop by its law, before `retire`. BRK is the entry to a
handler, whose vector lies in PRG, where no push lands; `entersHandler_enterHandler` says what an
entry does for every such vector, of an interrupt as well. RTI is the pull of the status, then a
16-bit pop.
-/

open Sys2Proof Sys2Proof.Machine Sys2Proof.Statement

namespace Sys2Proof.Machine

/-! ### Pushing one byte -/

/-- An instruction that pushes one byte and retires (R63, R104). -/
theorem pushResult_of_exec {i : Instr} {s : State} {v : Byte} (hs : s.Inv)
    (hi : exec i s = retire 1 3 (push v s)) :
    ∃ t : State, exec i s = .next t ∧ AfterPushes s t [v] ∧
      t = { advanced s 1 3 (pushWrites s.sp [v]) with ram := t.ram, sp := s.sp - 1 } := by
  refine ⟨_, hi, afterPushes_push_one hs v, ?_⟩
  rw [push_eq, stackAddr_eq_stackCell]
  simp [State.withPc, State.withCycles, advanced, pushWrites, List.range_succ]

/-- Settles O48: PHA and PHP push one byte each; PHP's is the status with bits 4 and 5 set (R34). -/
theorem phaAndPhpPushOneByte : Obligations.PhaAndPhpPushOneByte := by
  refine ⟨fun _ _ => rfl, fun _ _ => rfl, fun s hs => ⟨pushResult_of_exec hs rfl, ?_⟩⟩
  rw [← ppush_eq_statusByte]
  exact pushResult_of_exec hs rfl

/-! ### Entering a handler -/

/-- The three pushes of an entry: `ret`, then the status. What follows them writes no byte and
leaves SP (R231, R258). -/
theorem afterPushes_enterHandler {s : State} (hs : s.Inv) (vector ret : Word) (b : Bool) :
    AfterPushes s (enterHandler vector ret b s) [highByte ret, lowByte ret, statusByte s.p b] := by
  have hpushed : AfterPushes s (push (s.p.ppush b) (push16 ret s))
      [highByte ret, lowByte ret, statusByte s.p b] := by
    rw [ppush_eq_statusByte]
    exact afterPushes_push (afterPushes_push16 hs ret) ((hs.push _).push _) (by decide : 2 < 256) _
  simpa [AfterPushes, enterHandler, memRead16_eq] using hpushed

/-- The pushes of an entry change RAM, SP and the trace alone (R63). -/
theorem push_status_frame (s : State) (ret : Word) (b : Bool) :
    push (s.p.ppush b) (push16 ret s) = { s with
      ram := (push (s.p.ppush b) (push16 ret s)).ram, sp := s.sp - 3
      trace := s.trace ++ pushWrites s.sp [highByte ret, lowByte ret, statusByte s.p b] } := by
  have hsp : s.sp - 2 - 1 = s.sp - 3 := by bv_omega
  rw [push_eq, push16_frame, ppush_eq_statusByte, stackAddr_eq_stackCell, ← hsp]
  simp [pushWrites, List.range_succ]

section
variable {vector : Word} (hl : 0x4000 ≤ vector.toNat) (hh : 0x4000 ≤ (vector + 1).toNat)
  (ret : Word) (b : Bool)
include hl hh

/-- The vector lies where no push lands, so PC is the word that stood there before the entry, and
RAM, SP, I, PC and the trace are all that changes (R231, R258). -/
theorem enterHandler_frame (s : State) :
    enterHandler vector ret b s = { s with
      ram := (push (s.p.ppush b) (push16 ret s)).ram, sp := s.sp - 3
      p := { s.p with i := true }, pc := wordAt s vector
      trace := s.trace ++ entryAccesses vector ret b s } := by
  have hpeek : ∀ a : Word, 0x4000 ≤ a.toNat →
      (push (s.p.ppush b) (push16 ret s)).peek a = s.peek a := fun a ha =>
    peek_of_ge ha (by simp [push16]) (by simp [push16])
  simp only [enterHandler, memRead16_eq_wordAt, wordAt, readAt, State.withFlags_peek, hpeek _ hl,
    hpeek _ hh]
  rw [push_status_frame, entryAccesses, ← List.append_assoc]
  rfl

theorem entersHandler_enterHandler {s : State} (hs : s.Inv) :
    EntersHandler vector ret b s (enterHandler vector ret b s) := by
  refine ⟨afterPushes_enterHandler hs vector ret b, ?_⟩
  rw [enterHandler_frame hl hh]

end

/-- Settles O51: BRK is the entry at the IRQ vector with the address after its padding byte, from
every state, whatever I holds; the rest is the count. -/
theorem brkEntersTheIrqHandler : Obligations.BrkEntersTheIrqHandler := by
  have hl : 0x4000 ≤ irqVector.toNat := by decide
  have hh : 0x4000 ≤ (irqVector + 1).toNat := by decide
  refine ⟨fun _ _ => rfl, fun pad s hs => ⟨_, rfl, ?_, rfl, ?_⟩⟩
  · obtain ⟨hpushed, hframe⟩ := entersHandler_enterHandler hl hh (s.pc + 2) true hs
    exact ⟨hpushed, congrArg (State.withCycles · 7) hframe⟩
  · rw [State.withCycles_trace, enterHandler_frame hl hh]
    rfl

/-! ### Popping one byte, and returning from a handler -/

/-- The pull of the status: one pop, and every flag from the popped byte (R223, R232). -/
theorem pullStatus_eq_popped (s : State) :
    pullStatus s = { s with
      p := flagsOf (popped s 1), sp := s.sp + 1, trace := s.trace ++ [popRead s 1] } := by
  rw [pullStatus, pop_eq_popped]
  rfl

/-- Settles O49: one pop each, into A with `SetZN`, and into the flags. -/
theorem plaAndPlpPopOneByte : Obligations.PlaAndPlpPopOneByte := by
  refine ⟨fun _ _ => rfl, fun _ _ => rfl, fun s => ?_⟩
  simp only [exec, execPla, execPlp, pop_eq_popped, pullStatus_eq_popped, State.setZN_eq]
  exact ⟨rfl, rfl⟩

@[simp] theorem pullStatus_peek (s : State) (a : Word) : (pullStatus s).peek a = s.peek a := rfl

theorem pullStatus_sp_add (s : State) (k : Nat) :
    (pullStatus s).sp + BitVec.ofNat 8 k = s.sp + BitVec.ofNat 8 (k + 1) := by
  simp only [pullStatus_eq_popped]
  bv_omega

/-- The pops after the pull of the status take the bytes above it, which it did not change. -/
theorem popped_pullStatus (s : State) (k : Nat) : popped (pullStatus s) k = popped s (k + 1) := by
  rw [popped, popped, pullStatus_sp_add, pullStatus_peek]

theorem popRead_pullStatus (s : State) (k : Nat) :
    popRead (pullStatus s) k = popRead s (k + 1) := by
  rw [popRead, popRead, readAt, readAt, pullStatus_sp_add, pullStatus_peek]

/-- Settles O52: the pull of the status, then the two pops of PC. -/
theorem rtiPopsStatusThenPc : Obligations.RtiPopsStatusThenPc := by
  refine ⟨fun _ _ => rfl, fun s => ?_⟩
  have hsp : s.sp + 1 + 2 = s.sp + 3 := by bv_omega
  simp only [exec, execRti, returnFromHandler, pop16_eq_popped, popped_pullStatus,
    popRead_pullStatus, ← hsp]
  rw [pullStatus_eq_popped]
  simp [State.withPc, State.withCycles]

/-! ### The flag instructions -/

/-- An instruction that writes the flags and retires (R104). -/
theorem flagResult_of_exec {i : Instr} {op : Byte} {g : Flags → Flags} (hop : OneByte op i)
    (hi : ∀ s, exec i s = retire 1 2 (s.withFlags (g s.p))) : FlagResult i op g :=
  ⟨hop, fun s => (hi s).trans (retire_eq_advanced 1 2 _)⟩

/-- Settles O50: each is the write of its one flag. -/
theorem flagInstructionsWriteOneFlag : Obligations.FlagInstructionsWriteOneFlag := by
  refine ⟨?_, ?_, ?_, ?_, ?_, ?_, ?_⟩ <;> exact flagResult_of_exec (fun _ _ => rfl) fun _ => rfl

/-! ### NOP and the undefined opcodes -/

/-- Settles O53: all of these are `retire` alone, and the bytes R85 lists are the ones that decode to
an undefined instruction. -/
theorem nopAndUndefinedOnlyAdvancePc : Obligations.NopAndUndefinedOnlyAdvancePc :=
  ⟨fun _ _ => rfl, fun op hop l h => (decode_eq_undef_iff op l h).2 hop,
    fun _ => ⟨rfl, fun _ => rfl⟩⟩

end Sys2Proof.Machine
end

section
/-!
PROOFS. The statements of spec/60_exceptions.md: the three requests (R252 to R254), NMI and IRQ
entry (R258 to R260), the order of service in the worked example of R256, and the return from an
entry by RTI (R262, and R261, which the spec derives).

Both entries are one operation, `interruptEntry`, which differs from BRK's in the vector, the pushed
PC and bit 4. That RTI undoes it rests on `EntersHandler` alone, which says where the pushed bytes
stand.
-/

open Sys2Proof Sys2Proof.Machine Sys2Proof.Statement

namespace Sys2Proof.Machine

/-! ### The requests -/

/-- Settles O58: each request is the write of `true` to its latch, so a second one writes what is
already there. -/
theorem requestsSetTheirLatchOnce : Obligations.RequestsSetTheirLatchOnce := by
  refine fun s => ⟨rfl, rfl, rfl, fun e he t ht => ?_⟩
  rcases he with rfl | rfl | rfl <;> (cases ht; rfl)

/-! ### NMI and IRQ entry -/

/-- An interrupt tick but for its latch: the entry at the current PC with bit 4 = 0, in no cycles,
and no access but the entry's (R124, R258). -/
theorem entersHandler_interruptEntry {vector : Word} (hl : 0x4000 ≤ vector.toNat)
    (hh : 0x4000 ≤ (vector + 1).toNat) {s : State} (hs : s.Inv) :
    EntersHandler vector s.pc false s (interruptEntry vector (beginTick s)) ∧
    (interruptEntry vector (beginTick s)).cycles = 0 ∧
    (interruptEntry vector (beginTick s)).trace = entryAccesses vector s.pc false s := by
  have hbegin : (beginTick s).Inv := hs
  refine ⟨entersHandler_enterHandler hl hh s.pc false hbegin, enterHandler_cycles .., ?_⟩
  rw [interruptEntry, enterHandler_frame hl hh]
  rfl

section
variable {vector ret : Word} {b : Bool} {s t : State} (h : EntersHandler vector ret b s t)
include h

/-! An entry reads and writes no latch, so a latch written after it could be written before it
(R35). -/

theorem entersHandler_withNmiReq (r : Bool) :
    EntersHandler vector ret b { s with nmiReq := r } { t with nmiReq := r } := by
  obtain ⟨hpushed, hframe⟩ := h
  exact ⟨hpushed, congrArg (fun t : State => { t with nmiReq := r }) hframe⟩

theorem entersHandler_withIrqReq (r : Bool) :
    EntersHandler vector ret b { s with irqReq := r } { t with irqReq := r } := by
  obtain ⟨hpushed, hframe⟩ := h
  exact ⟨hpushed, congrArg (fun t : State => { t with irqReq := r }) hframe⟩

end

/-- Settles O10: the tick is the entry at the NMI vector, and its latch is cleared. -/
theorem nmiEntersItsHandler : Obligations.NmiEntersItsHandler := by
  intro s hs hreset hnmi
  obtain ⟨henters, hcycles, htrace⟩ :=
    entersHandler_interruptEntry (vector := nmiVector) (by decide) (by decide) hs
  exact ⟨serviceNmi s, step_of_nmiReq hreset hnmi, entersHandler_withNmiReq henters false,
    hcycles, htrace⟩

/-- Settles O11: with I = 0 the tick is the entry at the IRQ vector, and its latch is cleared; with
I = 1 no request is serviced. -/
theorem irqEntersItsHandlerWhenEnabled : Obligations.IrqEntersItsHandlerWhenEnabled := by
  refine fun s hs hreset hnmi hirq => ⟨fun hi => ?_, fun hi => ?_⟩
  · obtain ⟨henters, hcycles, htrace⟩ :=
      entersHandler_interruptEntry (vector := irqVector) (by decide) (by decide) hs
    exact ⟨serviceIrq s, step_of_irqReq hreset hnmi hirq hi,
      entersHandler_withIrqReq henters false, hcycles, htrace⟩
  · exact stepRunsDecodedInstruction s ⟨hreset, hnmi, .inr hi⟩

/-! ### All three requests pending -/

/-- A word from 0x4000 up, a vector among them, stays what it is under every operation (R59). -/
theorem State.Keeps.wordAt_of_ge {s t : State} (h : s.Keeps t) {a : Word} (hl : 0x4000 ≤ a.toNat)
    (hh : 0x4000 ≤ (a + 1).toNat) : wordAt t a = wordAt s a := by
  obtain ⟨hprg, hparams, -⟩ := h
  rw [wordAt, wordAt, peek_of_ge hl hprg hparams, peek_of_ge hh hprg hparams]

/-- Settles O13: the reset service leaves NMI pending and the vectors as they were, the NMI entry
leaves IRQ pending and I = 1, and the tick after that services nothing. -/
theorem threePendingRequestsInOrder : Obligations.ThreePendingRequestsInOrder := by
  intro s hs hreset hnmi hirq
  have hlatches := serviceReset_latches s
  simp only [hnmi, hirq, Prod.mk.injEq] at hlatches
  obtain ⟨htreset, htnmi, htirq⟩ := hlatches
  have hti : (serviceReset s).p.i = true := rfl
  obtain ⟨-, -, hinv⟩ := keeps_serviceReset s
  obtain ⟨u, hu, ⟨-, hframe⟩, -⟩ := nmiEntersItsHandler _ (hinv hs) htreset htnmi
  rw [(keeps_nmiReq.2 (keeps_serviceReset s)).wordAt_of_ge (by decide) (by decide)] at hframe
  obtain ⟨hureset, hunmi, huirq, hui, hupc⟩ : u.resetReq = false ∧ u.nmiReq = false ∧
      u.irqReq = true ∧ u.p.i = true ∧ u.pc = wordAt s 0xFFFA := by
    rw [hframe]
    exact ⟨htreset, rfl, htirq, rfl, rfl⟩
  have hnone : NoRequest u := ⟨hureset, hunmi, .inr hui⟩
  obtain ⟨v, hv, -⟩ := goesOn_step u
  have hvirq : v.irqReq = u.irqReq := congrArg (·.2.2) (step_latches_of_noRequest hnone hv)
  refine ⟨serviceReset s, u, v, step_of_resetReq hreset, hu, hv, ?_, serviceReset_pc s, ?_, hupc,
    stepRunsDecodedInstruction u hnone, hvirq.trans huirq⟩
  · rw [htreset, htnmi, htirq, hti]
  · rw [hureset, hunmi, huirq, hui]

/-! ### The return from an entry -/

/-- The flags popped from a pushed status are those of the push, with its bit 4 in the place of the
stored B (R33, R34). -/
theorem flagsOf_statusByte (f : Flags) (b : Bool) :
    flagsOf (statusByte f b) = { f with b := b } := by
  obtain ⟨n, v, b', d, i, z, c⟩ := f
  revert n v b' d i z c b
  decide

/-- RTI straight after any entry: the three pops read the three pushed bytes back, the last one
first, wherever SP stood (R64, R231, R258, R262). -/
theorem exec_rti_of_entersHandler {vector ret : Word} {b : Bool} {s t u : State}
    (ht : EntersHandler vector ret b s t) (hu : exec .rti t = .next u) :
    u.pc = ret ∧ u.sp = s.sp ∧ u.a = s.a ∧ u.x = s.x ∧ u.y = s.y ∧ u.p = { s.p with b := b } := by
  obtain ⟨hpushed, hframe⟩ := ht
  obtain ⟨-, hrti⟩ := rtiPopsStatusThenPc
  cases (hrti t).symm.trans hu
  have hhigh : popped t 3 = highByte ret := popped_of_afterPushes hpushed (k := 0) (by decide) rfl
  have hlow : popped t 2 = lowByte ret := popped_of_afterPushes hpushed (k := 1) (by decide) rfl
  have hstatus : popped t 1 = statusByte s.p b :=
    popped_of_afterPushes hpushed (k := 2) (by decide) rfl
  obtain ⟨hsp, -⟩ := hpushed
  refine ⟨?_, ?_, ?_⟩
  · rw [hhigh, hlow, wordOf_highByte_lowByte]
  · rw [hsp]
    exact BitVec.sub_add_cancel s.sp 3
  · rw [hstatus, flagsOf_statusByte, hframe]
    exact ⟨rfl, rfl, rfl, rfl⟩

/-- Settles O54: the tick is the entry of the one or the other interrupt, and RTI undoes either. -/
theorem rtiUndoesAnInterruptEntry : Obligations.RtiUndoesAnInterruptEntry := by
  intro s t u hs hreset hreq ht hu
  cases hnmi : s.nmiReq with
  | true =>
    obtain ⟨t', ht', henters, -⟩ := nmiEntersItsHandler s hs hreset hnmi
    cases ht'.symm.trans ht
    exact (exec_rti_of_entersHandler henters hu :)
  | false =>
    obtain ⟨hirq, hi⟩ : s.irqReq = true ∧ s.p.i = false := by simpa [hnmi] using hreq
    obtain ⟨hentry, -⟩ := irqEntersItsHandlerWhenEnabled s hs hreset hnmi hirq
    obtain ⟨t', ht', henters, -⟩ := hentry hi
    cases ht'.symm.trans ht
    exact (exec_rti_of_entersHandler henters hu :)

end Sys2Proof.Machine
end

section
/-!
PROOFS. The statement of spec/70_reset_and_hazards.md: the reset service (R281) and what it keeps
(R40).

The service pushes nothing, so the reset tick is one equation: the two vector reads, read from the
state the tick starts with, and the registers, flags and latch it writes.
-/

open Sys2Proof Sys2Proof.Machine Sys2Proof.Statement

namespace Sys2Proof.Machine

/-- The reset tick written out: the two vector reads are the whole trace, and no memory cell, other
register, flag or latch is written (R100, R281, R40). -/
theorem serviceReset_eq (s : State) :
    serviceReset s = { s with
      pc := wordAt s 0xFFFC, sp := 0xFF, p := { s.p with i := true, b := true }
      resetReq := false, cycles := 0, trace := [readAt s 0xFFFC, readAt s 0xFFFD] } := by
  rw [serviceReset, resetService, memRead16_eq_wordAt]
  rfl

/-- Settles O9: a pending reset goes before every other transition, so the tick is the service. -/
theorem resetServiceSetsOnlyItsRegisters : Obligations.ResetServiceSetsOnlyItsRegisters := by
  intro s hreset
  rw [step_of_resetReq hreset, serviceReset_eq]

end Sys2Proof.Machine
end
